-- ==== Sys2Proof/Word.lean ====
section
/-! DEFINITION. The widths of the block's codes and bytes (10_state.md R22 to R33, 30_encoding.md R111). Every value is
unsigned and of fixed width; the block has no wider word, since it has no memory (20_memory.md R60). -/

namespace Sys2Proof

/-- One byte of the serial line or of the data register (10_state.md R28, R33). -/
abbrev Byte := BitVec 8

/-- A sequencer state code, format `st4` (30_encoding.md R100). -/
abbrev StCode := BitVec 4

/-- A snapshot `{snap_ore, snap_fe, snap_pe}`, format `snap3`: bit 2 = ore, bit 1 = fe, bit 0 = pe (30_encoding.md R104). -/
abbrev Snap := BitVec 3

/-- A classification code (30_encoding.md R102). -/
abbrev KindCode := BitVec 2

/-- A fault cause code (30_encoding.md R103). -/
abbrev CauseCode := BitVec 3

end Sys2Proof
end

