-- ==== Sys2Proof/Syntax.lean ====
section
/-! DEFINITION. The operations of the block: one constructor per row of spec/opcode_table.json (30_encoding.md R100, R101,
R104). The block has no instruction words; an "instruction" is an operation of its sequencer (00_scope.md R2). -/

namespace Sys2Proof

/-- The operations that `st` selects (format `st4`, R100) and the classes a snapshot decodes to inside CLASSIFY (format
`snap3`, R104). A class row keeps, as operands, the bits of the snapshot that its pattern ignores, so that no bit of an
encoding is dropped (log 11). -/
inductive Instr where
  /-- st 0x0, R120. -/
  | pllSample
  /-- st 0x1, R129. -/
  | acquire
  /-- st 0x2, R130. -/
  | sysclkReport
  /-- st 0x3, R160. -/
  | waitRx
  /-- st 0x4, R162. -/
  | classify
  /-- st 0x5, R164. -/
  | drain
  /-- st 0x6, R165. -/
  | reportFault
  /-- st 0x7, R167. -/
  | read
  /-- st 0x8, R168. -/
  | waitTx
  /-- st 0x9, R169. -/
  | echo
  /-- st 0xA, R171. -/
  | reservedA
  /-- st 0xB, R171. -/
  | reservedB
  /-- st 0xC, R171. -/
  | reservedC
  /-- st 0xD, R171. -/
  | reservedD
  /-- st 0xE, R171. -/
  | reservedE
  /-- st 0xF, R170. -/
  | fatal
  /-- snap `of1`: PE set; `ore` and `fe` are ignored (R104). -/
  | classParity (ore fe : Bool)
  /-- snap `o10`: PE clear, FE set; `ore` is ignored (R104). -/
  | classFraming (ore : Bool)
  /-- snap `100`: PE and FE clear, ORE set (R104). -/
  | classOverrun
  /-- snap `000`: no fault flag (R104). -/
  | classValid
deriving DecidableEq, Repr

/-- The mnemonic of an operation, as the trace notation of 30_encoding.md R112 and spec/opcode_table.json write it. -/
def Instr.mnemonic : Instr → String
  | .pllSample => "PLL_SAMPLE"
  | .acquire => "ACQUIRE"
  | .sysclkReport => "SYSCLK_REPORT"
  | .waitRx => "WAIT_RX"
  | .classify => "CLASSIFY"
  | .drain => "DRAIN"
  | .reportFault => "REPORT_FAULT"
  | .read => "READ"
  | .waitTx => "WAIT_TX"
  | .echo => "ECHO"
  | .reservedA => "RESERVED_A"
  | .reservedB => "RESERVED_B"
  | .reservedC => "RESERVED_C"
  | .reservedD => "RESERVED_D"
  | .reservedE => "RESERVED_E"
  | .fatal => "FATAL"
  | .classParity _ _ => "CLASS_PARITY"
  | .classFraming _ => "CLASS_FRAMING"
  | .classOverrun => "CLASS_OVERRUN"
  | .classValid => "CLASS_VALID"

end Sys2Proof
end

