-- ==== Sys2Proof/WellFormed.lean ====
section
/-! DEFINITION. Well-formedness of an operation. Every value of every field of both formats selects a defined behaviour
(30_encoding.md R110), and the operands of the class rows are single bits, all of whose values the encoding admits: so
there is no check, and every term of `Instr` is well formed. What a `CodeWord` read from raw bits must satisfy is checked
where it is read (`readWord` in Sys2Proof/Decode.lean). -/

namespace Sys2Proof

/-- Every operation is well formed (30_encoding.md R110: "Decoding is total: every value of every field selects a defined
behaviour"). Written constructor by constructor, so that a new one cannot slip past. -/
def Instr.wellFormed : Instr → Bool
  | .pllSample => true
  | .acquire => true
  | .sysclkReport => true
  | .waitRx => true
  | .classify => true
  | .drain => true
  | .reportFault => true
  | .read => true
  | .waitTx => true
  | .echo => true
  | .reservedA => true
  | .reservedB => true
  | .reservedC => true
  | .reservedD => true
  | .reservedE => true
  | .fatal => true
  | .classParity _ _ => true
  | .classFraming _ => true
  | .classOverrun => true
  | .classValid => true

end Sys2Proof
end

