-- ==== Sys2Proof/Decode.lean ====
section
/-! DEFINITION. The state codes (30_encoding.md R100, R101), the classification decode (R104), their encoder, and the
reading of raw bits. Decoding a code word is total (R110); raw bits that are no code word are rejected by name. -/

namespace Sys2Proof

/-! The named state codes of R100. -/

/-- PLL_SAMPLE. -/
abbrev stPllSample : StCode := 0x0#4
/-- ACQUIRE. -/
abbrev stAcquire : StCode := 0x1#4
/-- SYSCLK_REPORT. -/
abbrev stSysclkReport : StCode := 0x2#4
/-- WAIT_RX. -/
abbrev stWaitRx : StCode := 0x3#4
/-- CLASSIFY. -/
abbrev stClassify : StCode := 0x4#4
/-- DRAIN. -/
abbrev stDrain : StCode := 0x5#4
/-- REPORT_FAULT. -/
abbrev stReportFault : StCode := 0x6#4
/-- READ. -/
abbrev stRead : StCode := 0x7#4
/-- WAIT_TX. -/
abbrev stWaitTx : StCode := 0x8#4
/-- ECHO. -/
abbrev stEcho : StCode := 0x9#4
/-- FATAL. -/
abbrev stFatal : StCode := 0xF#4

/-- A code of one of the two formats of spec/opcode_table.json. Both are of fixed width, with no prefix and no mode bit
(30_encoding.md R111). -/
inductive CodeWord where
  /-- Format `st4`: the sequencer state. -/
  | st4 (v : StCode)
  /-- Format `snap3`: the snapshot, which CLASSIFY decodes. -/
  | snap3 (v : Snap)
deriving DecidableEq, Repr

/-- The operation a state code selects, by its bits 3, 2, 1, 0 (R100, R101): one row per value, no default. -/
def decodeSt4 (v : StCode) : Instr :=
  match v.getLsbD 3, v.getLsbD 2, v.getLsbD 1, v.getLsbD 0 with
  | false, false, false, false => .pllSample
  | false, false, false, true => .acquire
  | false, false, true, false => .sysclkReport
  | false, false, true, true => .waitRx
  | false, true, false, false => .classify
  | false, true, false, true => .drain
  | false, true, true, false => .reportFault
  | false, true, true, true => .read
  | true, false, false, false => .waitTx
  | true, false, false, true => .echo
  | true, false, true, false => .reservedA
  | true, false, true, true => .reservedB
  | true, true, false, false => .reservedC
  | true, true, false, true => .reservedD
  | true, true, true, false => .reservedE
  | true, true, true, true => .fatal

/-- The class a snapshot decodes to, by its bits ore, fe, pe (R104): `of1`, `o10`, `100`, `000`. -/
def decodeSnap3 (v : Snap) : Instr :=
  match v.getLsbD 2, v.getLsbD 1, v.getLsbD 0 with
  | ore, fe, true => .classParity ore fe
  | ore, true, false => .classFraming ore
  | true, false, false => .classOverrun
  | false, false, false => .classValid

/-- The operation a code word stands for. -/
def decode : CodeWord → Instr
  | .st4 v => decodeSt4 v
  | .snap3 v => decodeSnap3 v

/-- Why raw bits are no code word. -/
inductive DecodeError where
  /-- The number of bits is that of no format. Safe: nothing runs. -/
  | noFormatOfThatWidth
  /-- A bit above the code's width is set. Safe: nothing runs. -/
  | bitsAboveTheCode
deriving DecidableEq, Repr

/-- The code word in `nbits` raw bits `w`: 3 bits are a snapshot, 4 bits a state code. A whole byte (8 bits) is read as a
state code with the bits above it 0, since it is `st` that selects what a step runs (R22, R100; log 11). -/
def readWord (nbits w : Nat) : Except DecodeError CodeWord :=
  match nbits with
  | 3 => if w < 8 then .ok (.snap3 (BitVec.ofNat 3 w)) else .error .bitsAboveTheCode
  | 4 => if w < 16 then .ok (.st4 (BitVec.ofNat 4 w)) else .error .bitsAboveTheCode
  | 8 => if w < 16 then .ok (.st4 (BitVec.ofNat 4 w)) else .error .bitsAboveTheCode
  | _ => .error .noFormatOfThatWidth

/-- The instruction the decoder reads from `nbits` bits `w`; `none` where it refuses. -/
def decodeTableWord (nbits w : Nat) : Option Instr :=
  match readWord nbits w with
  | .ok c => some (decode c)
  | .error _ => none

/-- A snapshot from its three bits (R104). -/
def packSnap (ore fe pe : Bool) : Snap := BitVec.ofBool ore ++ (BitVec.ofBool fe ++ BitVec.ofBool pe)

/-- The code word of an operation, from the tables of R100, R101 and R104. -/
def encode : Instr → CodeWord
  | .pllSample => .st4 0x0#4
  | .acquire => .st4 0x1#4
  | .sysclkReport => .st4 0x2#4
  | .waitRx => .st4 0x3#4
  | .classify => .st4 0x4#4
  | .drain => .st4 0x5#4
  | .reportFault => .st4 0x6#4
  | .read => .st4 0x7#4
  | .waitTx => .st4 0x8#4
  | .echo => .st4 0x9#4
  | .reservedA => .st4 0xA#4
  | .reservedB => .st4 0xB#4
  | .reservedC => .st4 0xC#4
  | .reservedD => .st4 0xD#4
  | .reservedE => .st4 0xE#4
  | .fatal => .st4 0xF#4
  | .classParity ore fe => .snap3 (packSnap ore fe true)
  | .classFraming ore => .snap3 (packSnap ore true false)
  | .classOverrun => .snap3 (packSnap true false false)
  | .classValid => .snap3 (packSnap false false false)

/-- How many bits a code word has (R111). -/
def CodeWord.width : CodeWord → Nat
  | .st4 _ => 4
  | .snap3 _ => 3

/-- The bits of a code word as a number, bit 0 least significant (00_scope.md R10). -/
def CodeWord.bits : CodeWord → Nat
  | .st4 v => v.toNat
  | .snap3 v => v.toNat

end Sys2Proof
end

