-- ==== Sys2Proof/Config.lean ====
section
/-! DEFINITION. What is fixed for the block (00_scope.md R6, R8) and the free values: the draws of the environment that no
agenda supplies, and the OPEN parameter `UART_INSTANCE`. A free value is an opaque constant: nothing in Lean can evaluate it. -/

namespace Sys2Proof

/-- The answers the environment gives in ONE turn of the sequencer, of which the turn's single port access uses its own
(20_memory.md R62). Any value of the type may be drawn. -/
structure Draws where
  /-- `handle_ok`: what AcquireHandle answers (10_state.md R34, 20_memory.md R83). -/
  handleOk : Bool
  /-- `r` of EmitString and WriteDR: `true` is ok; a `false` counts only when `WRITE_MAY_FAIL` holds (R35, R81, R82). -/
  writeOk : Bool
  /-- `k` of a failed EmitString: how many bytes were delivered; more than the string holds is the whole string (R81; log 15). -/
  sent : Nat
  /-- `t` of EmitString: `txe` afterwards, ok or fail (R81). -/
  txe : Bool
  /-- `keep` for a parity flag raised after the last ReadSR (R77). -/
  keepPe : Bool
  /-- `keep` for a framing flag raised after the last ReadSR (R77). -/
  keepFe : Bool
  /-- `keep` for an overrun flag raised after the last ReadSR (R77). -/
  keepOre : Bool
deriving DecidableEq, Repr, Inhabited

/-- `EXT_CLK_MHZ`, the external clock in MHz: "a fixed constant (8 MHz in this deployment)" (00_scope.md R6). -/
def Config.extClkMHz : Nat := 8

/-- The draws of a turn that no agenda gives draws for, by the turn's number: a free value (log 2). -/
opaque Config.freeDraws : Nat → Draws

/-- `UART_INSTANCE`, OPEN: which UART the firmware uses; no rule reads it (00_scope.md R8, D33; log 14). -/
opaque Config.uartInstance : String

end Sys2Proof
end

