-- ==== Sys2Proof/Machine/State.lean ====
section
/-! DEFINITION. The machine's state: the block's latches, its inputs, the UART peripheral it observes, and the environment's
agenda (10_state.md R20 to R39, 20_memory.md R73 to R86), with the state after reset (R38, 70_reset_and_hazards.md R260).
The block has no memory (R60), so State holds none. -/

namespace Sys2Proof.Machine

/-- The PLL configuration inputs, held constant from before the release of reset (10_state.md R31, 20_memory.md R80). -/
structure Pll where
  /-- `pll_m[5:0]`, the divider M. -/
  m : BitVec 6
  /-- `pll_n[8:0]`, the multiplier N. -/
  n : BitVec 9
  /-- `pll_p[1:0]`, the P-code. -/
  p : BitVec 2
deriving DecidableEq, Repr

/-- The 5-tuple of status flags `(rxne, txe, pe, fe, ore)` (10_state.md R32). -/
structure Flags where
  rxne : Bool
  txe : Bool
  pe : Bool
  fe : Bool
  ore : Bool
deriving DecidableEq, Repr

/-- The UART peripheral, which the block observes only through ReadSR and ReadDR (10_state.md R36). -/
structure Uart where
  rxne : Bool
  txe : Bool
  pe : Bool
  fe : Bool
  ore : Bool
  /-- The receive data register `rdr[7:0]` (R33). -/
  rdr : Byte
  /-- Whether `rdr` holds a value: `false` is the `none` of R38 (log 5). -/
  rdrHeld : Bool
  /-- The 5-tuple the last ReadSR returned, or none before the first (R36). -/
  seen : Option Flags
deriving DecidableEq, Repr

/-- Which of the latches that R38 resets to "none" hold a value (log 4). -/
structure Held where
  freq : Bool
  snap : Bool
  kind : Bool
  rxb : Bool
  fstate : Bool
deriving DecidableEq, Repr

/-- An environment move (20_memory.md R74 to R76). -/
inductive Move where
  /-- `arrive(b, p, f)` with, for an arrival into a full receiver, the draw `replace` (R74, R75). -/
  | arrive (b : Byte) (p f replace : Bool)
  /-- `tx_done` (R76). -/
  | txDone
deriving DecidableEq, Repr

/-- What the environment does next: a move, or to let the sequencer take its turn, answering with these draws. The order of
an agenda is that of the trace notation of 30_encoding.md R112 (20_memory.md R73; log 1). -/
inductive Event where
  | move (m : Move)
  | go (d : Draws)
deriving DecidableEq, Repr

/-- The state of the block and of its environment. -/
structure State where
  /-- `st[3:0]`, the sequencer state (R22). -/
  st : StCode
  /-- `freq[15:0]`, the computed frequency in MHz (R23). -/
  freq : BitVec 16
  /-- `snap[2:0]`, the flags sampled with RXNE (R24). -/
  snap : Snap
  /-- `kind[1:0]`, the classification of the receive event (R25). -/
  kind : KindCode
  /-- `rxb[7:0]`, the byte held for echo (R26). -/
  rxb : Byte
  /-- `fcause[2:0]`, the fault cause (R27). -/
  fcause : CauseCode
  /-- `fstate[3:0]`, the state that raised the fault (R29). -/
  fstate : StCode
  /-- `out`, the bytes handed to the serial transmitter, first byte first (R28). -/
  out : List Byte
  /-- Which of the latches with reset value "none" hold a value (R38). -/
  held : Held
  /-- The PLL configuration inputs (R31). -/
  pll : Pll
  /-- The UART peripheral (R36). -/
  uart : Uart
  /-- `WRITE_MAY_FAIL`, a parameter that no step writes (00_scope.md R8, 10_state.md R35; log 13). -/
  writeMayFail : Bool
  /-- The model's own field: what the environment does next, first event first (log 1). -/
  agenda : List Event
  /-- The model's own field: how many turns the sequencer has had (log 2). -/
  turns : Nat
deriving DecidableEq, Repr

/-- The reasons a step can stop. -/
inductive Fault where
  /-- Raised by ECHO when WriteDR meets `txe` = 0: the spec gives this no step ("it is stuck", 20_memory.md R82); it cannot
  happen in a run from reset. Safe: nothing goes on from it (log 9). -/
  | writeDrStuck
deriving DecidableEq, Repr

/-- The reasons a step can be refused. -/
inductive Refusal where
  /-- An instruction without a meaning, rejected in exec's arm; no arm of this model is. Safe: nothing goes on from it. -/
  | notModelled (mnemonic : String)
deriving DecidableEq, Repr

/-- The peripheral at the release of reset, premise CLEAN_UART (10_state.md R37, R38; logs 5, 7). -/
def Uart.clean : Uart :=
  { rxne := false, txe := true, pe := false, fe := false, ore := false, rdr := 0x00#8, rdrHeld := false, seen := none }

/-- The state after reset for any PLL fields, which the clock-configuration collaborator has set, and any agenda of the
environment (10_state.md R38, 70_reset_and_hazards.md R260). The latches without a reset value are 0 and not held (log 4). -/
def State.resetWith (pll : Pll) (agenda : List Event) : State :=
  { st := 0x0#4, freq := 0#16, snap := 0b000#3, kind := 0#2, rxb := 0x00#8, fcause := 0#3, fstate := 0x0#4, out := [],
    held := { freq := false, snap := false, kind := false, rxb := false, fstate := false },
    pll := pll, uart := Uart.clean, writeMayFail := true, agenda := agenda, turns := 0 }

/-- The state after reset with the PLL fields (4, 168, 1) of 95_test_vectors.md part 7 and an empty agenda (logs 3, 6). -/
def State.reset : State := State.resetWith { m := 4#6, n := 168#9, p := 1#2 } []

end Sys2Proof.Machine
end

