-- ==== Sys2Proof/Machine/Flags.lean ====
section
/-! DEFINITION. Every flag computation of the block and of the peripheral: the snapshot (R160), the classification by fixed
priority (R162, R163), the flags after a consuming read (20_memory.md R77), and the status-word layout with its combined
decode (30_encoding.md R107). -/

namespace Sys2Proof.Machine

/-! The classification codes of R102. -/

/-- VALID. -/
abbrev kindValid : KindCode := 0#2
/-- PARITY. -/
abbrev kindParity : KindCode := 1#2
/-- FRAMING. -/
abbrev kindFraming : KindCode := 2#2
/-- OVERRUN. -/
abbrev kindOverrun : KindCode := 3#2

/-- The snapshot `{v.ore, v.fe, v.pe}` of one status read (R160). -/
def Flags.snapshot (v : Flags) : Snap := packSnap v.ore v.fe v.pe

/-- The class of a snapshot by the fixed priority parity, framing, overrun (R162). -/
def classOf (snap : Snap) : KindCode :=
  if snap.getLsbD 0 then kindParity
  else if snap.getLsbD 1 then kindFraming
  else if snap.getLsbD 2 then kindOverrun
  else kindValid

/-- Where CLASSIFY goes for a class: READ for VALID, DRAIN for a fault (R162, R178). -/
def afterClass (kind : KindCode) : StCode :=
  if kind = kindValid then stRead else stDrain

/-- The peripheral's flags as they stand (R79). -/
def Uart.flags (u : Uart) : Flags :=
  { rxne := u.rxne, txe := u.txe, pe := u.pe, fe := u.fe, ore := u.ore }

/-- Whether the last ReadSR showed a flag; before the first ReadSR it showed none (R36, R77; log 10). -/
def Uart.shown (u : Uart) (flag : Flags → Bool) : Bool :=
  match u.seen with
  | none => false
  | some v => flag v

/-- A fault flag after ReadDR: cleared if the last ReadSR showed it; else, if set, kept or cleared by the draw (R77). -/
def flagAfterRead (shown now keep : Bool) : Bool :=
  if shown then false else now && keep

/-- The peripheral after ReadDR (R77): `rxne` and the flags in `seen` cleared, late flags by the draws, `rdr` unchanged. -/
def Uart.consumed (u : Uart) (d : Draws) : Uart :=
  { u with
    rxne := false
    pe := flagAfterRead (u.shown Flags.pe) u.pe d.keepPe
    fe := flagAfterRead (u.shown Flags.fe) u.fe d.keepFe
    ore := flagAfterRead (u.shown Flags.ore) u.ore d.keepOre }

/-! The status word (30_encoding.md R107), for a reader that takes USART_SR whole. -/

/-- The flags of a status word, bits 9..0: PE 0, FE 1, ORE 3, RXNE 5, TXE 7 (R107; log 18). -/
def flagsOfWord (w : BitVec 10) : Flags :=
  { rxne := w.getLsbD 5, txe := w.getLsbD 7, pe := w.getLsbD 0, fe := w.getLsbD 1, ore := w.getLsbD 3 }

/-- The combined WAIT_RX and CLASSIFY decode of a status word by mask and match (R107): `none` is "not ready". -/
def classOfWord (w : BitVec 10) : Option KindCode :=
  if w &&& 0x020#10 = 0x000#10 then none
  else if w &&& 0x021#10 = 0x021#10 then some kindParity
  else if w &&& 0x023#10 = 0x022#10 then some kindFraming
  else if w &&& 0x02B#10 = 0x028#10 then some kindOverrun
  else some kindValid

/-- The WAIT_TX decode of a status word by mask and match (R107). -/
def txReadyOfWord (w : BitVec 10) : Bool := w &&& 0x080#10 == 0x080#10

end Sys2Proof.Machine
end

