-- ==== Sys2Proof/Machine/Operands.lean ====
section
/-! DEFINITION. Every operand form of the block (30_encoding.md R109): the PLL fields and the frequency computed from them
(40_clock_verifier.md R120 to R128), the PLL register word (R105), the messages (R108), and the decimal spelling (R131). -/

namespace Sys2Proof.Machine

/-! ## The PLL fields and the frequency -/

/-- The PLL fields in the RCC_PLLCFGR word: PLLM [5:0], PLLN [14:6], PLLP [17:16] (R105; log 18). -/
def pllOfWord (w : BitVec 32) : Pll :=
  { m := w.extractLsb' 0 6, n := w.extractLsb' 6 9, p := w.extractLsb' 16 2 }

/-- The result of the frequency function (R121). -/
inductive FreqResult where
  | value (f : Nat)
  | divByZero
deriving DecidableEq, Repr

/-- `PllFreq`, the pure function of the calculator, on naturals (R121): one exact numerator, one exact denominator, one
truncating division. -/
def pllFreq (m n p : Nat) : FreqResult :=
  if m = 0 then .divByZero
  else .value ((Config.extClkMHz * n) / (m * ((p + 1) * 2)))

/-- The effective divisor `(zext_16(p) + 1) * 2`: 2, 4, 6 or 8 (R106, R120). -/
def pllDivisor (p : BitVec 2) : BitVec 16 := (p.setWidth 16 + 1#16) * 2#16

/-- The numerator `EXT_CLK_MHZ * zext_16(n)` (R120). -/
def pllNumerator (n : BitVec 9) : BitVec 16 := BitVec.ofNat 16 Config.extClkMHz * n.setWidth 16

/-- The denominator `zext_16(m) * div` (R120). -/
def pllDenominator (m : BitVec 6) (p : BitVec 2) : BitVec 16 := m.setWidth 16 * pllDivisor p

/-- The frequency as the block computes it, on 16-bit unsigned values (R120, R123). Used only where `m` is not 0. -/
def pllFreq16 (c : Pll) : BitVec 16 := pllNumerator c.n / pllDenominator c.m c.p

/-! ## Strings -/

/-- The digit `d` as the byte `0x30 + d` (R131). -/
def digitByte (d : Nat) : Byte := BitVec.ofNat 8 (0x30 + d)

/-- The digits of `v`, most significant first; `fuel` bounds the number of divisions. -/
def decDigits : (fuel : Nat) → (v : Nat) → List Byte
  | 0, v => [digitByte (v % 10)]
  | fuel + 1, v => if v < 10 then [digitByte v] else decDigits fuel (v / 10) ++ [digitByte (v % 10)]

/-- `dec(v)`, the decimal ASCII spelling of a natural (R131). -/
def dec (v : Nat) : List Byte := decDigits v v

/-- MSG_PARITY (R108): CR LF `Parity error detected.` CR LF. -/
def msgParity : List Byte :=
  [0x0d, 0x0a, 0x50, 0x61, 0x72, 0x69, 0x74, 0x79, 0x20, 0x65, 0x72, 0x72, 0x6f, 0x72, 0x20, 0x64, 0x65, 0x74, 0x65,
   0x63, 0x74, 0x65, 0x64, 0x2e, 0x0d, 0x0a]

/-- MSG_FRAMING (R108): CR LF `Framing error detected.` CR LF. -/
def msgFraming : List Byte :=
  [0x0d, 0x0a, 0x46, 0x72, 0x61, 0x6d, 0x69, 0x6e, 0x67, 0x20, 0x65, 0x72, 0x72, 0x6f, 0x72, 0x20, 0x64, 0x65, 0x74,
   0x65, 0x63, 0x74, 0x65, 0x64, 0x2e, 0x0d, 0x0a]

/-- MSG_OVERRUN (R108): CR LF `Over run error detected.` CR LF. -/
def msgOverrun : List Byte :=
  [0x0d, 0x0a, 0x4f, 0x76, 0x65, 0x72, 0x20, 0x72, 0x75, 0x6e, 0x20, 0x65, 0x72, 0x72, 0x6f, 0x72, 0x20, 0x64, 0x65,
   0x74, 0x65, 0x63, 0x74, 0x65, 0x64, 0x2e, 0x0d, 0x0a]

/-- The message for a classification; VALID has none (R102, R165). -/
def messageOf (kind : KindCode) : Option (List Byte) :=
  if kind = kindParity then some msgParity
  else if kind = kindFraming then some msgFraming
  else if kind = kindOverrun then some msgOverrun
  else none

/-- `sysclk=` (R108). -/
def sysclkHead : List Byte := [0x73, 0x79, 0x73, 0x63, 0x6c, 0x6b, 0x3d]

/-- `MHz.` CR LF (R108). -/
def sysclkTail : List Byte := [0x4d, 0x48, 0x7a, 0x2e, 0x0d, 0x0a]

/-- The startup line `"sysclk=" ++ dec(freq) ++ "MHz.\r\n"` (R108, R130). -/
def sysclkLine (freq : BitVec 16) : List Byte := sysclkHead ++ dec freq.toNat ++ sysclkTail

end Sys2Proof.Machine
end

