-- ==== Sys2Proof/Machine/Ops.lean ====
section
/-! DEFINITION. The shared operations: writing a latch, entering FATAL (60_exceptions.md R225), the six port primitives
(00_scope.md R12, 20_memory.md R61 to R83), the environment's moves (R73 to R76), and what a turn of the sequencer is. -/

namespace Sys2Proof.Machine

/-- What a step or an operation answers. -/
abbrev Result := Host.Outcome State Fault Refusal

/-! ## Latches -/

/-- `st <- c` (R22). -/
def State.goto (c : StCode) (s : State) : State := { s with st := c }

/-- `freq <- f` (R23). -/
def State.setFreq (f : BitVec 16) (s : State) : State := { s with freq := f, held := { s.held with freq := true } }

/-- `snap <- v` (R24). -/
def State.setSnap (v : Snap) (s : State) : State := { s with snap := v, held := { s.held with snap := true } }

/-- `kind <- k` (R25). -/
def State.setKind (k : KindCode) (s : State) : State := { s with kind := k, held := { s.held with kind := true } }

/-- `rxb <- b` (R26). -/
def State.setRxb (b : Byte) (s : State) : State := { s with rxb := b, held := { s.held with rxb := true } }

/-- The peripheral becomes `u` (R36). -/
def State.setUart (u : Uart) (s : State) : State := { s with uart := u }

/-- `out <- out ++ bytes` (R28). -/
def State.send (bytes : List Byte) (s : State) : State := { s with out := s.out ++ bytes }

/-! ## Entering FATAL -/

/-- DIV_BY_ZERO (R103, R221). -/
abbrev causeDivByZero : CauseCode := 1#3
/-- HANDLE_FAIL (R103, R222). -/
abbrev causeHandleFail : CauseCode := 2#3
/-- WRITE_FAIL (R103, R223). -/
abbrev causeWriteFail : CauseCode := 3#3
/-- ILLEGAL_STATE (R103, R224). -/
abbrev causeIllegalState : CauseCode := 4#3

/-- `raise Fatal(c)` (R225): `fcause <- c`, `fstate <- st`, `st <- 0xF`; no other latch. There is no return from it (R227). -/
def State.raiseFatal (c : CauseCode) (s : State) : State :=
  { s with fcause := c, fstate := s.st, st := stFatal, held := { s.held with fstate := true } }

/-! ## The draws and the ports -/

/-- The draws of the sequencer's present turn: those the agenda gives, or the free value of the turn's number (log 2). -/
def State.draws (s : State) : Draws :=
  match s.agenda with
  | .go d :: _ => d
  | _ => Config.freeDraws s.turns

/-- What EmitString or WriteDR returns: `fail` is drawn only when `WRITE_MAY_FAIL` holds (R35, R81, R82). -/
def State.writeOk (s : State) : Bool := s.draws.writeOk || !s.writeMayFail

/-- `SamplePLL()`: the three fields in one access, no side effect (R80). -/
def samplePll (s : State) : Pll := s.pll

/-- `AcquireHandle()`: the handle provider's answer, no other effect (R83). -/
def acquireHandle (s : State) : Bool := s.draws.handleOk

/-- `ReadSR()`: the flags as they stand; only `seen` changes (R79). -/
def readSr (s : State) : Flags × State :=
  (s.uart.flags, s.setUart { s.uart with seen := some s.uart.flags })

/-- `ReadDR()`: the data register, then the consuming effect (R77). -/
def readDr (s : State) : Byte × State :=
  (s.uart.rdr, s.setUart (s.uart.consumed s.draws))

/-- What of a string a write-string call delivers: all of it, or on a failure its first `k` bytes (R81). -/
def State.delivered (str : List Byte) (s : State) : List Byte :=
  if s.writeOk then str else str.take s.draws.sent

/-- `EmitString(str)`: the answer, and the state with what was delivered in `out` and `txe` drawn (R81). -/
def emitString (str : List Byte) (s : State) : Bool × State :=
  (s.writeOk, (s.send (s.delivered str)).setUart { s.uart with txe := s.draws.txe })

/-- `WriteDR(b)`: with `txe` = 0 there is no step (`none`, stuck); else on ok the byte is in `out` and `txe` is 0, and on a
failure nothing changes (R82). -/
def writeDr (b : Byte) (s : State) : Option (Bool × State) :=
  if s.uart.txe then
    some (s.writeOk, if s.writeOk then (s.send [b]).setUart { s.uart with txe := false } else s)
  else none

/-- After a write: back to WAIT_RX if it answered ok, else Fatal(WRITE_FAIL) (R130, R165, R169, R223). -/
def afterWrite (r : Bool × State) : State :=
  if r.1 then r.2.goto stWaitRx else r.2.raiseFatal causeWriteFail

/-- CLASSIFY's effect for one class: `kind` is written and the sequencer goes to DRAIN or READ (R162). -/
def State.enterClass (k : KindCode) (s : State) : State := (s.setKind k).goto (afterClass k)

/-! ## The environment's moves and turns -/

/-- An arrival: into an empty receiver (R74), or an overrun of a full one (R75). -/
def Uart.arrive (u : Uart) (b : Byte) (p f replace : Bool) : Uart :=
  if u.rxne then
    { u with ore := true, pe := u.pe || p, fe := u.fe || f, rdr := if replace then b else u.rdr,
             rdrHeld := u.rdrHeld || replace }
  else
    { u with rdr := b, rdrHeld := true, rxne := true, pe := u.pe || p, fe := u.fe || f }

/-- The effect of a move (R74 to R76). `tx_done` with `txe` already 1 is not enabled and changes nothing (log 17). -/
def Uart.afterMove (u : Uart) : Move → Uart
  | .arrive b p f replace => u.arrive b p f replace
  | .txDone => if u.txe then u else { u with txe := true }

/-- The agenda once the sequencer has had its turn. -/
def agendaAfterTurn : List Event → List Event
  | .go _ :: rest => rest
  | agenda => agenda

/-- The sequencer has had its turn: the turn's draws are used up. -/
def State.endTurn (s : State) : State :=
  { s with agenda := agendaAfterTurn s.agenda, turns := s.turns + 1 }

/-- The environment makes the move `m`, and `rest` is still to come (R73). -/
def State.makeMove (m : Move) (rest : List Event) (s : State) : State :=
  { s with uart := s.uart.afterMove m, agenda := rest }

/-- A turn's answer: a next state has its draws used up. -/
def endTurnOf : Result → Result
  | .next s => .next s.endTurn
  | .fault r => .fault r
  | .refused r => .refused r

/-- The operation that the state selects (R21, R100); no words are fetched (R71). -/
def fetch (s : State) : Instr := decode (.st4 s.st)

/-- The agenda without the moves that stand before its next turn. -/
def dropMoves : List Event → List Event
  | .move _ :: rest => dropMoves rest
  | agenda => agenda

end Sys2Proof.Machine
end

