-- ==== Sys2Proof/Machine/Absorbing.lean ====
section
/-! DEFINITION. The reserved codes and FATAL (41_serial_echo_loop.md R170, R171). -/

namespace Sys2Proof.Machine

/-- RESERVED 0xA (R171): Fatal(ILLEGAL_STATE). -/
def execReservedA (s : State) : Result := .next (s.raiseFatal causeIllegalState)

/-- RESERVED 0xB (R171): Fatal(ILLEGAL_STATE). -/
def execReservedB (s : State) : Result := .next (s.raiseFatal causeIllegalState)

/-- RESERVED 0xC (R171): Fatal(ILLEGAL_STATE). -/
def execReservedC (s : State) : Result := .next (s.raiseFatal causeIllegalState)

/-- RESERVED 0xD (R171): Fatal(ILLEGAL_STATE). -/
def execReservedD (s : State) : Result := .next (s.raiseFatal causeIllegalState)

/-- RESERVED 0xE (R171): Fatal(ILLEGAL_STATE). -/
def execReservedE (s : State) : Result := .next (s.raiseFatal causeIllegalState)

/-- FATAL (R170): the stuttering self-step, which changes no state (log 8). -/
def execFatal (s : State) : Result := .next s

end Sys2Proof.Machine
end

