-- ==== Sys2Proof/Machine/Classes.lean ====
section
/-! DEFINITION. The class rows of format `snap3` (30_encoding.md R104): CLASSIFY's effect for a snapshot of that class
(41_serial_echo_loop.md R162; log 11). The bits a pattern ignores are operands that its meaning ignores. -/

namespace Sys2Proof.Machine

/-- CLASS_PARITY (R104, R162): `kind` 1, then DRAIN, whatever `ore` and `fe` are. -/
def execClassParity (_ore _fe : Bool) (s : State) : Result := .next (s.enterClass kindParity)

/-- CLASS_FRAMING (R104, R162): `kind` 2, then DRAIN, whatever `ore` is. -/
def execClassFraming (_ore : Bool) (s : State) : Result := .next (s.enterClass kindFraming)

/-- CLASS_OVERRUN (R104, R162): `kind` 3, then DRAIN. -/
def execClassOverrun (s : State) : Result := .next (s.enterClass kindOverrun)

/-- CLASS_VALID (R104, R162): `kind` 0, then READ. -/
def execClassValid (s : State) : Result := .next (s.enterClass kindValid)

end Sys2Proof.Machine
end

