-- ==== Sys2Proof/Machine/EchoLoop.lean ====
section
/-! DEFINITION. The operations of the serial echo loop: WAIT_RX, CLASSIFY, DRAIN, REPORT_FAULT, READ, WAIT_TX, ECHO
(41_serial_echo_loop.md R160 to R169). -/

namespace Sys2Proof.Machine

/-- WAIT_RX (R160): spins while RXNE is 0; else takes the snapshot of the same read and goes to CLASSIFY. -/
def execWaitRx (s : State) : Result :=
  .next (
    let r := readSr s
    if r.1.rxne then (r.2.setSnap r.1.snapshot).goto stClassify else r.2.goto stWaitRx)

/-- CLASSIFY (R162): the priority decode of the snapshot; no port access. -/
def execClassify (s : State) : Result :=
  .next (s.enterClass (classOf s.snap))

/-- DRAIN (R164): consumes the byte and discards it; REPORT_FAULT is next. -/
def execDrain (s : State) : Result :=
  .next ((readDr s).2.goto stReportFault)

/-- REPORT_FAULT (R165): emits the message of `kind` and goes back to WAIT_RX, or Fatal(WRITE_FAIL); with `kind` = 0
Fatal(ILLEGAL_STATE) and no port access. -/
def execReportFault (s : State) : Result :=
  .next (
    match messageOf s.kind with
    | some msg => afterWrite (emitString msg s)
    | none => s.raiseFatal causeIllegalState)

/-- READ (R167): consumes the byte into `rxb`, all 8 bits; WAIT_TX is next. -/
def execRead (s : State) : Result :=
  .next (
    let r := readDr s
    (r.2.setRxb r.1).goto stWaitTx)

/-- WAIT_TX (R168): spins while TXE is 0; else ECHO is next. The snapshot is not written. -/
def execWaitTx (s : State) : Result :=
  .next (
    let r := readSr s
    if r.1.txe then r.2.goto stEcho else r.2.goto stWaitTx)

/-- ECHO (R169): writes `rxb` to the transmitter and goes back to WAIT_RX, or Fatal(WRITE_FAIL). A WriteDR with `txe` = 0
has no step (R82; log 9). -/
def execEcho (s : State) : Result :=
  match writeDr s.rxb s with
  | some r => .next (afterWrite r)
  | none => .fault .writeDrStuck

end Sys2Proof.Machine
end

