-- ==== Sys2Proof/Machine/Startup.lean ====
section
/-! DEFINITION. The startup operations: PLL_SAMPLE, ACQUIRE, SYSCLK_REPORT (40_clock_verifier.md R120, R129, R130). -/

namespace Sys2Proof.Machine

/-- PLL_SAMPLE (R120): Fatal(DIV_BY_ZERO) on `m` = 0, tested first; else `freq` is written and ACQUIRE is next. -/
def execPllSample (s : State) : Result :=
  .next (
    let c := samplePll s
    if c.m = 0#6 then s.raiseFatal causeDivByZero
    else (s.setFreq (pllFreq16 c)).goto stAcquire)

/-- ACQUIRE (R129): SYSCLK_REPORT is next, or Fatal(HANDLE_FAIL). -/
def execAcquire (s : State) : Result :=
  .next (if acquireHandle s then s.goto stSysclkReport else s.raiseFatal causeHandleFail)

/-- SYSCLK_REPORT (R130): emits the startup line; WAIT_RX is next, or Fatal(WRITE_FAIL). -/
def execSysclkReport (s : State) : Result :=
  .next (afterWrite (emitString (sysclkLine s.freq) s))

end Sys2Proof.Machine
end

