-- ==== Sys2Proof/Machine/Dispatch.lean ====
section
/-! DEFINITION. The meaning of each operation: the next-state function of 41_serial_echo_loop.md R178, one arm per row of
spec/opcode_table.json. -/

namespace Sys2Proof.Machine

/-- The effect of the operation `i` in the state `s` (R178). -/
def exec (i : Instr) (s : State) : Host.Outcome State Fault Refusal :=
  match i with
  | .pllSample => Sys2Proof.Machine.execPllSample s
  | .acquire => Sys2Proof.Machine.execAcquire s
  | .sysclkReport => Sys2Proof.Machine.execSysclkReport s
  | .waitRx => Sys2Proof.Machine.execWaitRx s
  | .classify => Sys2Proof.Machine.execClassify s
  | .drain => Sys2Proof.Machine.execDrain s
  | .reportFault => Sys2Proof.Machine.execReportFault s
  | .read => Sys2Proof.Machine.execRead s
  | .waitTx => Sys2Proof.Machine.execWaitTx s
  | .echo => Sys2Proof.Machine.execEcho s
  | .reservedA => Sys2Proof.Machine.execReservedA s
  | .reservedB => Sys2Proof.Machine.execReservedB s
  | .reservedC => Sys2Proof.Machine.execReservedC s
  | .reservedD => Sys2Proof.Machine.execReservedD s
  | .reservedE => Sys2Proof.Machine.execReservedE s
  | .fatal => Sys2Proof.Machine.execFatal s
  | .classParity ore fe => Sys2Proof.Machine.execClassParity ore fe s
  | .classFraming ore => Sys2Proof.Machine.execClassFraming ore s
  | .classOverrun => Sys2Proof.Machine.execClassOverrun s
  | .classValid => Sys2Proof.Machine.execClassValid s

end Sys2Proof.Machine
end

