-- ==== Sys2Proof/Machine/Step.lean ====
section
/-! DEFINITION. One step of the machine: a pending move of the environment, or else the operation that `st` selects, in one
turn of the sequencer (10_state.md R21, 20_memory.md R73; log 1). -/

namespace Sys2Proof.Machine

/-- One step. The environment moves only between the sequencer's turns (R73); a turn performs one operation (R21). -/
def step (s : State) : Host.Outcome State Fault Refusal :=
  match s.agenda with
  | .move m :: rest => .next (s.makeMove m rest)
  | _ => endTurnOf (exec (fetch s) s)

/-- `s` with the code of `nbits` bits `w` where the next step takes its operation from: a state code in `st`, or, for a
snapshot of 3 bits, CLASSIFY in `st` and the snapshot in `snap`; no move stands before that turn (logs 11, 12). -/
def State.withFetchWord (s : State) (nbits w : Nat) : State :=
  let s := { s with agenda := dropMoves s.agenda }
  if nbits = 3 then (s.setSnap (BitVec.ofNat 3 w)).goto stClassify else s.goto (BitVec.ofNat 4 w)

end Sys2Proof.Machine
end

