-- ==== Sys2Proof/Safety.lean ====
section
/-! DEFINITION. The terms in which claims about the machine are stated: the observation (00_scope.md R16), runs over turns with
the environment's moves between them (20_memory.md R73, R85), and the invariant of every reachable state
(41_serial_echo_loop.md R178, 10_state.md R38). -/

namespace Sys2Proof.Machine

/-! ## The observation -/

/-- What a claim about the block sees: `out`, and whether and with what `fcause` the block is in FATAL (R16). -/
structure Observation where
  out : List Byte
  fatal : Option CauseCode
deriving DecidableEq, Repr

/-- The observation of a state (R16). -/
def State.observation (s : State) : Observation :=
  { out := s.out, fatal := if s.st = stFatal then some s.fcause else none }

/-! ## Runs -/

/-- One turn of the sequencer as a claim gives it: the environment's moves before it, and its draws in it (R73). -/
structure Turn where
  moves : List Move
  draws : Draws
deriving DecidableEq, Repr

/-- The events of a turn: its moves, then the sequencer's operation. -/
def Turn.events (t : Turn) : List Event := t.moves.map Event.move ++ [Event.go t.draws]

/-- The agenda of a sequence of turns. -/
def agendaOf (ts : List Turn) : List Event := ts.flatMap Turn.events

/-- The moves of a sequence of turns, in order. -/
def movesOf (ts : List Turn) : List Move := ts.flatMap Turn.moves

/-- `n` steps of the machine, stopping at the first fault or refusal: `Host.Core.run` of the machine (run_eq_core_run). -/
def run : Nat → State → Result
  | 0, s => .next s
  | n + 1, s =>
    match step s with
    | .next t => run n t
    | .fault r => .fault r
    | .refused r => .refused r

/-- The run of the machine over a sequence of turns: as many steps as their agenda has events. -/
def State.runTurns (s : State) (ts : List Turn) : Result :=
  run (agendaOf ts).length { s with agenda := agendaOf ts }

/-- The peripheral after a sequence of moves with no access of the block between them. -/
def Uart.afterMoves (u : Uart) (ms : List Move) : Uart := ms.foldl Uart.afterMove u

/-- Whether a move is an arrival (R74, R75). -/
def Move.isArrive : Move → Bool
  | .arrive _ _ _ _ => true
  | .txDone => false

/-- A next state changed by `f`; a fault or a refusal stays. -/
def mapNext (f : State → State) : Result → Result
  | .next s => .next (f s)
  | .fault r => .fault r
  | .refused r => .refused r

/-- No move of the environment stands before the sequencer's next turn. -/
def State.atTurn (s : State) : Prop := ∀ m rest, s.agenda ≠ .move m :: rest

/-- The first `n` turns of an unending sequence. -/
def firstTurns (turns : Nat → Turn) (n : Nat) : List Turn := (List.range n).map turns

/-- FAIR_TX (20_memory.md R84): whenever `txe` is 0 after some turns of the run, `tx_done` fires in a later turn. A premise of
progress claims only. -/
def fairTx (s : State) (turns : Nat → Turn) : Prop :=
  ∀ n t, s.runTurns (firstTurns turns n) = .next t → t.uart.txe = false → ∃ j, n ≤ j ∧ Move.txDone ∈ (turns j).moves

/-! ## The invariant -/

/-- The codes reachable from reset: 0x0 to 0x9 and 0xF (R178). -/
def legalCode (c : StCode) : Prop := c.toNat ≤ 9 ∨ c = 0xF#4

/-- Outside FATAL no fault is recorded; in FATAL the record is one that R221, R222 or R223 makes (ILLEGAL_STATE is unreachable,
R224). -/
def faultRecordOk (s : State) : Prop :=
  (s.st ≠ 0xF#4 ∧ s.fcause = 0#3 ∧ s.held.fstate = false) ∨
  (s.st = 0xF#4 ∧ s.held.fstate = true ∧
    ((s.fcause = 1#3 ∧ s.fstate = 0x0#4) ∨ (s.fcause = 2#3 ∧ s.fstate = 0x1#4) ∨
      (s.fcause = 3#3 ∧ (s.fstate = 0x2#4 ∨ s.fstate = 0x6#4 ∨ s.fstate = 0x9#4))))

/-- Where an operation reads a latch, the latch holds a value (R38: none "is read before it is written"); and `freq`, once
held, is at most 2044 (R23, R128). -/
def latchesOk (s : State) : Prop :=
  (s.held.freq = true → s.freq.toNat ≤ 2044) ∧
  (s.st ≠ 0x0#4 → s.st ≠ 0xF#4 → s.held.freq = true) ∧
  (s.st = 0x4#4 → s.held.snap = true) ∧
  (s.st = 0x5#4 ∨ s.st = 0x6#4 ∨ s.st = 0x7#4 → s.held.kind = true) ∧
  (s.st = 0x8#4 ∨ s.st = 0x9#4 → s.held.rxb = true)

/-- The class and the path agree: from CLASSIFY to the end of the path `kind` is the class of the snapshot; DRAIN and
REPORT_FAULT run with a fault class, READ with VALID (R162, R178). -/
def classOk (s : State) : Prop :=
  (s.st = 0x5#4 ∨ s.st = 0x6#4 ∨ s.st = 0x7#4 → s.kind = classOf s.snap) ∧
  (s.st = 0x5#4 ∨ s.st = 0x6#4 → s.kind ≠ 0#2) ∧ (s.st = 0x7#4 → s.kind = 0#2)

/-- A pending byte is a value in `rdr`; and from the snapshot to the consuming read the byte is still there, the snapshot is
that of the last ReadSR, and each of its fault flags is still set (R77, R78, R160). -/
def windowOk (s : State) : Prop :=
  (s.uart.rxne = true → s.uart.rdrHeld = true) ∧
  (s.st = 0x4#4 ∨ s.st = 0x5#4 ∨ s.st = 0x7#4 →
    s.uart.rxne = true ∧ ∃ v, s.uart.seen = some v ∧ v.rxne = true ∧ s.snap = packSnap v.ore v.fe v.pe ∧
      (v.pe = true → s.uart.pe = true) ∧ (v.fe = true → s.uart.fe = true) ∧ (v.ore = true → s.uart.ore = true))

/-- ECHO runs only after a WAIT_TX that saw `txe` = 1, and `txe` still is 1 (R82, R267). -/
def transmitOk (s : State) : Prop :=
  s.st = 0x9#4 → s.uart.txe = true ∧ ∃ v, s.uart.seen = some v ∧ v.txe = true

/-- The invariant of every state reachable from reset. -/
def StateInv (s : State) : Prop :=
  legalCode s.st ∧ faultRecordOk s ∧ latchesOk s ∧ classOk s ∧ windowOk s ∧ transmitOk s

end Sys2Proof.Machine
end

