-- ==== Sys2Proof/Certificates/Slice0/Obligations.lean ====
section
/-! DEFINITION. The statements for the provers. Each docstring names the rules of spec/ the statement formalises; where a
clause rests on a choice of the model it names the log entry. State codes, kinds and causes are written as the spec's
numbers, so that a statement does not lean on the model's names for them. -/

open Sys2Proof Sys2Proof.Machine

/-! ## Encoding -/

/-- R100, R101, R104, R110: the decoder gives back every operation from its code word, and from the word's raw bits. -/
def Obligations.EncodedOperationDecodesToItself : Prop :=
  ∀ i : Instr, i.wellFormed = true →
    decode (encode i) = i ∧ decodeTableWord (encode i).width (encode i).bits = some i

/-- R100, R104: encoding what a code word of either format decodes to gives the code word back, so no two code words decode to
one operation. That a class row's ignored snapshot bits come back too rests on the model's choice to keep them as operands
(log 11). -/
def Obligations.EveryCodeWordIsReencoded : Prop := ∀ c : CodeWord, encode (decode c) = c

/-- R100, R101: the operation of each of the sixteen state codes, written out. -/
def Obligations.StateCodesSelectTheirOperations : Prop :=
  decodeSt4 0x0#4 = .pllSample ∧ decodeSt4 0x1#4 = .acquire ∧ decodeSt4 0x2#4 = .sysclkReport ∧
  decodeSt4 0x3#4 = .waitRx ∧ decodeSt4 0x4#4 = .classify ∧ decodeSt4 0x5#4 = .drain ∧
  decodeSt4 0x6#4 = .reportFault ∧ decodeSt4 0x7#4 = .read ∧ decodeSt4 0x8#4 = .waitTx ∧
  decodeSt4 0x9#4 = .echo ∧ decodeSt4 0xA#4 = .reservedA ∧ decodeSt4 0xB#4 = .reservedB ∧
  decodeSt4 0xC#4 = .reservedC ∧ decodeSt4 0xD#4 = .reservedD ∧ decodeSt4 0xE#4 = .reservedE ∧
  decodeSt4 0xF#4 = .fatal

/-- R104: the classification decode by mask and match: each snapshot that matches a row decodes to that row's class, and
CLASSIFY's `kind` for it is the row's; every snapshot matches exactly one row. -/
def Obligations.SnapshotRowsAreDisjointAndCoverAll : Prop :=
  ∀ v : Snap,
    (v &&& 0b001#3 = 0b001#3 → decodeSnap3 v = .classParity (v.getLsbD 2) (v.getLsbD 1) ∧ classOf v = 1#2) ∧
    (v &&& 0b011#3 = 0b010#3 → decodeSnap3 v = .classFraming (v.getLsbD 2) ∧ classOf v = 2#2) ∧
    (v &&& 0b111#3 = 0b100#3 → decodeSnap3 v = .classOverrun ∧ classOf v = 3#2) ∧
    (v &&& 0b111#3 = 0b000#3 → decodeSnap3 v = .classValid ∧ classOf v = 0#2) ∧
    [decide (v &&& 0b001#3 = 0b001#3), decide (v &&& 0b011#3 = 0b010#3), decide (v &&& 0b111#3 = 0b100#3),
      decide (v &&& 0b111#3 = 0b000#3)].count true = 1

/-- R107: for every status word, the combined decode by mask and match is "not ready" where RXNE is 0 and else the class of
the snapshot of the word's flags; and the WAIT_TX decode is the TXE flag. -/
def Obligations.StatusWordDecodeAgreesWithFlags : Prop :=
  ∀ w : BitVec 10,
    classOfWord w = (if (flagsOfWord w).rxne then some (classOf (flagsOfWord w).snapshot) else none) ∧
    txReadyOfWord w = (flagsOfWord w).txe

/-- R105: the fields of the PLL register word, as numbers: bits [5:0], [14:6] and [17:16]. The layout is the spec's general
knowledge (log 18). -/
def Obligations.PllWordFieldsAreItsBitSlices : Prop :=
  ∀ w : BitVec 32,
    (pllOfWord w).m.toNat = w.toNat % 64 ∧
    (pllOfWord w).n.toNat = w.toNat / 64 % 512 ∧
    (pllOfWord w).p.toNat = w.toNat / 65536 % 4

/-! ## Reset -/

/-- R260: reset puts `st` at 0x0 and `fcause` at 0, empties `out`, and leaves `freq`, `snap`, `kind`, `rxb` and `fstate`
holding no value; the first operation is PLL_SAMPLE. It holds for every PLL field and agenda, and so of `State.reset`. -/
def Obligations.ResetLeavesLatchesAtTheirResetValues : Prop :=
  (∃ pll agenda, State.reset = State.resetWith pll agenda) ∧
  ∀ pll agenda,
    let s := State.resetWith pll agenda
    s.st = 0x0#4 ∧ s.fcause = 0#3 ∧ s.out = [] ∧ s.held.freq = false ∧ s.held.snap = false ∧ s.held.kind = false ∧
    s.held.rxb = false ∧ s.held.fstate = false ∧ fetch s = .pllSample ∧ s.pll = pll ∧ s.agenda = agenda

/-- R264 (R37): at reset release no byte is pending, no fault is latched, the transmitter is empty; nothing was seen, and
`rdr` holds no value. -/
def Obligations.PeripheralIsCleanAtReset : Prop :=
  ∀ pll agenda,
    let u := (State.resetWith pll agenda).uart
    u.rxne = false ∧ u.pe = false ∧ u.fe = false ∧ u.ore = false ∧ u.txe = true ∧ u.seen = none ∧ u.rdrHeld = false

/-! ## A step -/

/-- R21, R22, R73: with no move of the environment pending, a step runs the operation that `st` decodes to, on the state as it
is; what the step adds is that the turn is counted and its draws leave the agenda (log 1). No operation is refused. -/
def Obligations.StepRunsTheOperationOfTheState : Prop :=
  ∀ (s : State) (i : Instr), s.atTurn → decodeTableWord 4 s.st.toNat = some i → i.wellFormed = true →
    (∀ t, exec i s = .next t → t.agenda = s.agenda ∧ t.turns = s.turns) ∧
    (∀ t, exec i s = .next t →
      (∀ d rest, s.agenda = .go d :: rest → step s = .next { t with agenda := rest, turns := t.turns + 1 }) ∧
      (s.agenda = [] → step s = .next { t with turns := t.turns + 1 })) ∧
    (∀ r, exec i s = .fault r → step s = .fault r) ∧
    (∀ r, exec i s ≠ .refused r)

/-- R73 (log 1): a pending move of the environment is made between turns: it changes the peripheral and nothing of the block. -/
def Obligations.PendingMoveIsMadeBetweenTurns : Prop :=
  ∀ (s : State) (m : Move) (rest : List Event), s.agenda = .move m :: rest →
    step s = .next { s with uart := s.uart.afterMove m, agenda := rest }

/-! ## The environment's moves -/

/-- R74: an arrival into an empty receiver. -/
def Obligations.ArrivalFillsAnEmptyReceiver : Prop :=
  ∀ (u : Uart) (b : Byte) (p f replace : Bool), u.rxne = false →
    u.afterMove (.arrive b p f replace) =
      { u with rdr := b, rxne := true, pe := u.pe || p, fe := u.fe || f, rdrHeld := true }

/-- R75: an arrival into a full receiver sets `ore`, and replaces `rdr` exactly as the draw says; and (DATA_STABLE) a step
that changes `rdr` while `rxne` is 1 makes such a move with `replace`. -/
def Obligations.ArrivalOverrunsAFullReceiver : Prop :=
  (∀ (u : Uart) (b : Byte) (p f replace : Bool), u.rxne = true →
    u.afterMove (.arrive b p f replace) =
      { u with ore := true, pe := u.pe || p, fe := u.fe || f, rdr := if replace then b else u.rdr,
               rdrHeld := u.rdrHeld || replace }) ∧
  (∀ s t : State, step s = .next t → s.uart.rxne = true → t.uart.rdr ≠ s.uart.rdr →
    ∃ b p f rest, s.agenda = .move (.arrive b p f true) :: rest)

/-- R76: `tx_done` raises `txe`; and (TXE_BY_WRITE) a step that lowers `txe` is a turn in SYSCLK_REPORT, REPORT_FAULT or
ECHO, the states that make WriteDR or EmitString. -/
def Obligations.TransmitterEmptiesByTxDoneAndFillsByWrite : Prop :=
  (∀ u : Uart, u.txe = false → u.afterMove .txDone = { u with txe := true }) ∧
  (∀ s t : State, step s = .next t → s.uart.txe = true → t.uart.txe = false →
    s.atTurn ∧ (s.st = 0x2#4 ∨ s.st = 0x6#4 ∨ s.st = 0x9#4))

/-- R78, duty LATCH: no move of the environment clears `rxne`, `pe`, `fe` or `ore`; a step that clears one is a turn in DRAIN
or READ, the states that make ReadDR. -/
def Obligations.OnlyAConsumingReadClearsALatch : Prop :=
  ∀ s t : State, step s = .next t →
    (s.uart.rxne = true ∧ t.uart.rxne = false) ∨ (s.uart.pe = true ∧ t.uart.pe = false) ∨
      (s.uart.fe = true ∧ t.uart.fe = false) ∨ (s.uart.ore = true ∧ t.uart.ore = false) →
    s.atTurn ∧ (s.st = 0x5#4 ∨ s.st = 0x7#4)

/-- R77: ReadDR returns `rdr` and leaves everything but the peripheral alone; in the peripheral `rxne` is cleared, a fault flag
shown by the last ReadSR is cleared, one not shown stays exactly if it is set and the draw keeps it, and `rdr` and the rest
are unchanged. -/
def Obligations.ConsumingReadClearsTheShownFlags : Prop :=
  (∀ s : State, readDr s = (s.uart.rdr, { s with uart := s.uart.consumed s.draws })) ∧
  ∀ (u : Uart) (d : Draws) (v : Flags), u.seen = some v →
    (u.consumed d).rxne = false ∧
    (u.consumed d).pe = (if v.pe then false else u.pe && d.keepPe) ∧
    (u.consumed d).fe = (if v.fe then false else u.fe && d.keepFe) ∧
    (u.consumed d).ore = (if v.ore then false else u.ore && d.keepOre) ∧
    (u.consumed d).txe = u.txe ∧ (u.consumed d).rdr = u.rdr ∧ (u.consumed d).rdrHeld = u.rdrHeld ∧
    (u.consumed d).seen = u.seen

/-- The model's choice of log 10, for a ReadDR before any ReadSR, which the spec says cannot happen: no flag was shown, so each
one that is set is kept or cleared by its draw. -/
def Obligations.ReadBeforeAnyStatusReadDrawsEveryFlag : Prop :=
  ∀ (u : Uart) (d : Draws), u.seen = none →
    u.consumed d = { u with
      rxne := false, pe := u.pe && d.keepPe, fe := u.fe && d.keepFe, ore := u.ore && d.keepOre }

/-! ## Startup: PLL_SAMPLE, ACQUIRE, SYSCLK_REPORT -/

/-- R121, R123: the frequency function on naturals is the 16-bit computation of the block for every input with `m` ≠ 0:
numerator at most 4088, denominator 2 to 504, quotient at most 2044, and nothing wraps. -/
def Obligations.SixteenBitFrequencyIsExact : Prop :=
  (∀ m n p : Nat, pllFreq m n p = if m = 0 then .divByZero else .value (8 * n / (m * ((p + 1) * 2)))) ∧
  ∀ c : Pll, c.m ≠ 0#6 →
    pllFreq c.m.toNat c.n.toNat c.p.toNat = .value (pllFreq16 c).toNat ∧
    (pllNumerator c.n).toNat = 8 * c.n.toNat ∧ 8 * c.n.toNat ≤ 4088 ∧
    (pllDenominator c.m c.p).toNat = c.m.toNat * ((c.p.toNat + 1) * 2) ∧
    2 ≤ c.m.toNat * ((c.p.toNat + 1) * 2) ∧ c.m.toNat * ((c.p.toNat + 1) * 2) ≤ 504 ∧
    (pllFreq16 c).toNat ≤ 2044

/-- R120: PLL_SAMPLE writes the truncated quotient to `freq` and goes to ACQUIRE; with `m` = 0, whatever `n` and `p` are, it
raises Fatal(DIV_BY_ZERO) and leaves `freq` alone. Everything not named is unchanged. -/
def Obligations.PllSampleComputesTheFrequency : Prop :=
  ∀ s : State,
    (s.pll.m ≠ 0#6 →
      exec .pllSample s = .next { s with
        freq := BitVec.ofNat 16 (8 * s.pll.n.toNat / (s.pll.m.toNat * ((s.pll.p.toNat + 1) * 2)))
        held := { s.held with freq := true }
        st := 0x1#4 }) ∧
    (s.pll.m = 0#6 →
      exec .pllSample s = .next { s with
        fcause := 1#3, fstate := s.st, st := 0xF#4, held := { s.held with fstate := true } })

/-- R128: the frequency PLL_SAMPLE writes is 0 to 2044; it is 2044 only at (1, 511, 0), and 0 exactly when `8*n` is below
`m*divisor`. -/
def Obligations.FrequencyRange : Prop :=
  ∀ s : State, s.pll.m ≠ 0#6 →
    ∃ t, exec .pllSample s = .next t ∧ t.freq.toNat ≤ 2044 ∧
      (t.freq.toNat = 2044 ↔ s.pll.m = 1#6 ∧ s.pll.n = 511#9 ∧ s.pll.p = 0#2) ∧
      (t.freq = 0#16 ↔ 8 * s.pll.n.toNat < s.pll.m.toNat * ((s.pll.p.toNat + 1) * 2))

/-- R129: ACQUIRE goes to SYSCLK_REPORT when the handle provider answers ok, and raises Fatal(HANDLE_FAIL) when it fails;
nothing is written to `out` and nothing else changes. -/
def Obligations.AcquireFollowsTheHandleProvider : Prop :=
  ∀ s : State,
    (s.draws.handleOk = true → exec .acquire s = .next { s with st := 0x2#4 }) ∧
    (s.draws.handleOk = false →
      exec .acquire s = .next { s with
        fcause := 2#3, fstate := s.st, st := 0xF#4, held := { s.held with fstate := true } })

/-- R130, R81, R223: SYSCLK_REPORT appends the whole line and goes to WAIT_RX when the write answers ok; on a failure it
appends the drawn first bytes of the line and raises Fatal(WRITE_FAIL); `txe` is drawn in both cases. A write fails only when
`WRITE_MAY_FAIL` holds (R35). -/
def Obligations.SysclkReportEmitsTheStartupLine : Prop :=
  ∀ s : State,
    (s.draws.writeOk = true ∨ s.writeMayFail = false →
      exec .sysclkReport s = .next { s with
        out := s.out ++ sysclkLine s.freq, uart := { s.uart with txe := s.draws.txe }, st := 0x3#4 }) ∧
    (s.draws.writeOk = false ∧ s.writeMayFail = true →
      exec .sysclkReport s = .next { s with
        out := s.out ++ (sysclkLine s.freq).take s.draws.sent, uart := { s.uart with txe := s.draws.txe },
        fcause := 3#3, fstate := s.st, st := 0xF#4, held := { s.held with fstate := true } })

/-- R108: the bytes of the four output strings are the ASCII bytes of their texts, with the lengths the table gives. -/
def Obligations.OutputStringsAreTheirTexts : Prop :=
  let ascii := fun text : String => text.toList.map (fun c => BitVec.ofNat 8 c.toNat)
  msgParity = ascii "\r\nParity error detected.\r\n" ∧ msgParity.length = 26 ∧
  msgFraming = ascii "\r\nFraming error detected.\r\n" ∧ msgFraming.length = 27 ∧
  msgOverrun = ascii "\r\nOver run error detected.\r\n" ∧ msgOverrun.length = 28 ∧
  ∀ f : BitVec 16, sysclkLine f = ascii "sysclk=" ++ dec f.toNat ++ ascii "MHz.\r\n" ∧
    (sysclkLine f).length = 13 + (dec f.toNat).length

/-- R131: the spelling of a natural is decimal: digits only, most significant first, its value is the number, "0" for 0 and no
leading zero otherwise; a number up to 2044 has 1 to 4 digits. -/
def Obligations.DecimalSpelling : Prop :=
  ∀ v : Nat,
    (∀ b ∈ dec v, 0x30 ≤ b.toNat ∧ b.toNat ≤ 0x39) ∧
    (dec v).foldl (fun acc b => 10 * acc + (b.toNat - 0x30)) 0 = v ∧
    (v = 0 → dec v = [0x30#8]) ∧
    (v ≠ 0 → ∃ b rest, dec v = b :: rest ∧ b ≠ 0x30#8) ∧
    (v ≤ 2044 → 1 ≤ (dec v).length ∧ (dec v).length ≤ 4)

/-! ## The echo loop -/

/-- R160: WAIT_RX stays in WAIT_RX while RXNE is 0, whatever the fault flags; with RXNE 1 it takes the snapshot
`{ore, fe, pe}` of the same read and goes to CLASSIFY. Both record `seen`; nothing else changes. -/
def Obligations.WaitRxSpinsOrTakesTheSnapshot : Prop :=
  ∀ s : State,
    (s.uart.rxne = false →
      exec .waitRx s = .next { s with uart := { s.uart with seen := some s.uart.flags }, st := 0x3#4 }) ∧
    (s.uart.rxne = true →
      exec .waitRx s = .next { s with
        uart := { s.uart with seen := some s.uart.flags }
        snap := packSnap s.uart.ore s.uart.fe s.uart.pe
        held := { s.held with snap := true }
        st := 0x4#4 })

/-- R162: CLASSIFY's priority: parity, then framing, then overrun, else valid; `kind` and `st` are all it writes. -/
def Obligations.ClassifyByFixedPriority : Prop :=
  ∀ s : State,
    (s.snap.getLsbD 0 = true →
      exec .classify s = .next { s with kind := 1#2, held := { s.held with kind := true }, st := 0x5#4 }) ∧
    (s.snap.getLsbD 0 = false → s.snap.getLsbD 1 = true →
      exec .classify s = .next { s with kind := 2#2, held := { s.held with kind := true }, st := 0x5#4 }) ∧
    (s.snap.getLsbD 0 = false → s.snap.getLsbD 1 = false → s.snap.getLsbD 2 = true →
      exec .classify s = .next { s with kind := 3#2, held := { s.held with kind := true }, st := 0x5#4 }) ∧
    (s.snap.getLsbD 0 = false → s.snap.getLsbD 1 = false → s.snap.getLsbD 2 = false →
      exec .classify s = .next { s with kind := 0#2, held := { s.held with kind := true }, st := 0x7#4 })

/-- R104, R162 (log 11): each class row writes its `kind` and goes to DRAIN or READ, whatever the bits its pattern ignores; and
CLASSIFY does exactly what the class row its snapshot decodes to does. -/
def Obligations.ClassifyRunsTheDecodedClassRow : Prop :=
  (∀ (s : State) (ore fe : Bool),
    exec (.classParity ore fe) s = .next { s with kind := 1#2, held := { s.held with kind := true }, st := 0x5#4 } ∧
    exec (.classFraming ore) s = .next { s with kind := 2#2, held := { s.held with kind := true }, st := 0x5#4 } ∧
    exec .classOverrun s = .next { s with kind := 3#2, held := { s.held with kind := true }, st := 0x5#4 } ∧
    exec .classValid s = .next { s with kind := 0#2, held := { s.held with kind := true }, st := 0x7#4 }) ∧
  (∀ s : State, exec .classify s = exec (decode (.snap3 s.snap)) s)

/-- R161: the classification depends on the snapshot alone: whatever the peripheral has become since, CLASSIFY does the same
and leaves the peripheral as it is. -/
def Obligations.ClassificationIgnoresLaterFlags : Prop :=
  ∀ (s : State) (u : Uart),
    exec .classify { s with uart := u } = mapNext (fun t => { t with uart := u }) (exec .classify s)

/-- R164: DRAIN makes the consuming read, goes to REPORT_FAULT, and writes no latch: not `rxb` either. -/
def Obligations.DrainConsumesAndWritesNoLatch : Prop :=
  ∀ s : State, exec .drain s = .next { s with uart := s.uart.consumed s.draws, st := 0x6#4 }

/-- R164: the drained byte is discarded: the outcome differs in nothing but `rdr` when the byte differs. -/
def Obligations.DrainDiscardsTheByte : Prop :=
  ∀ (s : State) (b : Byte),
    exec .drain { s with uart := { s.uart with rdr := b } } =
      mapNext (fun t => { t with uart := { t.uart with rdr := b } }) (exec .drain s)

/-- R165, R81, R223: REPORT_FAULT appends the message of `kind` and goes back to WAIT_RX when the write answers ok; on a
failure it appends the drawn first bytes and raises Fatal(WRITE_FAIL); with `kind` = 0 it raises Fatal(ILLEGAL_STATE) and
emits nothing. -/
def Obligations.ReportFaultEmitsTheMessageOfItsKind : Prop :=
  (∀ (s : State) (msg : List Byte),
    (s.kind = 1#2 ∧ msg = msgParity) ∨ (s.kind = 2#2 ∧ msg = msgFraming) ∨ (s.kind = 3#2 ∧ msg = msgOverrun) →
    (s.draws.writeOk = true ∨ s.writeMayFail = false →
      exec .reportFault s = .next { s with
        out := s.out ++ msg, uart := { s.uart with txe := s.draws.txe }, st := 0x3#4 }) ∧
    (s.draws.writeOk = false ∧ s.writeMayFail = true →
      exec .reportFault s = .next { s with
        out := s.out ++ msg.take s.draws.sent, uart := { s.uart with txe := s.draws.txe },
        fcause := 3#3, fstate := s.st, st := 0xF#4, held := { s.held with fstate := true } })) ∧
  (∀ s : State, s.kind = 0#2 →
    exec .reportFault s = .next { s with
      fcause := 4#3, fstate := s.st, st := 0xF#4, held := { s.held with fstate := true } })

/-- R167: READ takes the whole data byte into `rxb` with the consuming read, and goes to WAIT_TX. -/
def Obligations.ReadTakesTheWholeByte : Prop :=
  ∀ s : State,
    exec .read s = .next { s with
      rxb := s.uart.rdr, held := { s.held with rxb := true }, uart := s.uart.consumed s.draws, st := 0x8#4 }

/-- R168: WAIT_TX stays in WAIT_TX while TXE is 0 and goes to ECHO when it is 1, whatever the receive flags; it records `seen`,
and the snapshot is not written. -/
def Obligations.WaitTxSpinsOrGoesToEcho : Prop :=
  ∀ s : State,
    (s.uart.txe = false →
      exec .waitTx s = .next { s with uart := { s.uart with seen := some s.uart.flags }, st := 0x8#4 }) ∧
    (s.uart.txe = true →
      exec .waitTx s = .next { s with uart := { s.uart with seen := some s.uart.flags }, st := 0x9#4 })

/-- R169 (with R82's effect of WriteDR): after a WAIT_TX that saw `txe` = 1, ECHO appends exactly `rxb`, lowers `txe` and goes
back to WAIT_RX when the write answers ok; on a failure `out` and the peripheral are unchanged and it raises
Fatal(WRITE_FAIL). -/
def Obligations.EchoWritesTheHeldByte : Prop :=
  ∀ s : State, s.uart.txe = true →
    (s.draws.writeOk = true ∨ s.writeMayFail = false →
      exec .echo s = .next { s with
        out := s.out ++ [s.rxb], uart := { s.uart with txe := false }, st := 0x3#4 }) ∧
    (s.draws.writeOk = false ∧ s.writeMayFail = true →
      exec .echo s = .next { s with
        fcause := 3#3, fstate := s.st, st := 0xF#4, held := { s.held with fstate := true } })

/-- The model's form of R82's "it is stuck" (log 9): ECHO with `txe` = 0 ends in the fault writeDrStuck, and no other operation
ever ends in a fault. -/
def Obligations.OnlyAWriteToAFullTransmitterIsStuck : Prop :=
  ∀ (i : Instr) (s : State), (∃ r, exec i s = .fault r) ↔ i = .echo ∧ s.uart.txe = false

/-- R171: each reserved code raises Fatal(ILLEGAL_STATE) and changes nothing else; and a turn in a state that holds one enters
FATAL with `fcause` 4 and with that code in `fstate`. -/
def Obligations.ReservedCodesRaiseIllegalState : Prop :=
  (∀ s t : State,
    t = { s with fcause := 4#3, fstate := s.st, st := 0xF#4, held := { s.held with fstate := true } } →
    exec .reservedA s = .next t ∧ exec .reservedB s = .next t ∧ exec .reservedC s = .next t ∧
    exec .reservedD s = .next t ∧ exec .reservedE s = .next t) ∧
  (∀ s : State, s.atTurn → 0xA#4 ≤ s.st → s.st ≠ 0xF#4 →
    ∃ t, step s = .next t ∧ t.st = 0xF#4 ∧ t.fcause = 4#3 ∧ t.fstate = s.st ∧ t.out = s.out ∧ t.uart = s.uart)

/-- R170 (log 8): FATAL's step changes no state. -/
def Obligations.FatalStuttersInPlace : Prop := ∀ s : State, exec .fatal s = .next s

/-! ## Rules of the whole machine -/

/-- R178: the next `st` of a turn, row by row of the next-state table. For FATAL, where R178 has no step, the row says that the
stutter of log 8 stays there. -/
def Obligations.TurnsFollowTheNextStateTable : Prop :=
  ∀ s t : State, s.atTurn → step s = .next t →
    (s.st = 0x0#4 → t.st = if s.pll.m = 0#6 then 0xF#4 else 0x1#4) ∧
    (s.st = 0x1#4 → t.st = if s.draws.handleOk then 0x2#4 else 0xF#4) ∧
    (s.st = 0x2#4 → t.st = if s.draws.writeOk || !s.writeMayFail then 0x3#4 else 0xF#4) ∧
    (s.st = 0x3#4 → t.st = if s.uart.rxne then 0x4#4 else 0x3#4) ∧
    (s.st = 0x4#4 → t.st = if s.snap = 0#3 then 0x7#4 else 0x5#4) ∧
    (s.st = 0x5#4 → t.st = 0x6#4) ∧
    (s.st = 0x6#4 → t.st = if s.kind ≠ 0#2 ∧ (s.draws.writeOk || !s.writeMayFail) = true then 0x3#4 else 0xF#4) ∧
    (s.st = 0x7#4 → t.st = 0x8#4) ∧
    (s.st = 0x8#4 → t.st = if s.uart.txe then 0x9#4 else 0x8#4) ∧
    (s.st = 0x9#4 → t.st = if s.draws.writeOk || !s.writeMayFail then 0x3#4 else 0xF#4) ∧
    (0xA#4 ≤ s.st → t.st = 0xF#4)

/-- R23 to R29, R31, R262: who writes what. A step that changes `freq`, `snap`, `kind` or `rxb` is a turn in the one state that
writes it; `fcause` and `fstate` change only on entry to FATAL; the PLL inputs never change. That WRITE_MAY_FAIL, a parameter
(R8), never changes is the model's choice to hold it as a field of State that no step writes (log 13). -/
def Obligations.EachLatchHasItsOneWriter : Prop :=
  ∀ s t : State, step s = .next t →
    (t.freq ≠ s.freq → s.atTurn ∧ s.st = 0x0#4) ∧
    (t.snap ≠ s.snap → s.atTurn ∧ s.st = 0x3#4) ∧
    (t.kind ≠ s.kind → s.atTurn ∧ s.st = 0x4#4) ∧
    (t.rxb ≠ s.rxb → s.atTurn ∧ s.st = 0x7#4) ∧
    (t.fcause ≠ s.fcause ∨ t.fstate ≠ s.fstate → s.atTurn ∧ s.st ≠ 0xF#4 ∧ t.st = 0xF#4) ∧
    t.pll = s.pll ∧ t.writeMayFail = s.writeMayFail

/-- R28: `out` grows by appending only, and only in SYSCLK_REPORT, REPORT_FAULT and ECHO. -/
def Obligations.OutputGrowsByAppendingOnly : Prop :=
  ∀ s t : State, step s = .next t →
    ∃ bytes, t.out = s.out ++ bytes ∧
      (bytes ≠ [] → s.atTurn ∧ (s.st = 0x2#4 ∨ s.st = 0x6#4 ∨ s.st = 0x9#4))

/-- R67: no operation but PLL_SAMPLE depends on the PLL fields, and none writes them: with other fields each does the same; and
no turn leads back to PLL_SAMPLE, so they are read once per reset. -/
def Obligations.OnlyPllSampleReadsThePll : Prop :=
  (∀ (i : Instr) (s : State) (c : Pll), i ≠ .pllSample →
    exec i { s with pll := c } = mapNext (fun t => { t with pll := c }) (exec i s)) ∧
  (∀ (i : Instr) (s t : State), exec i s = .next t → t.pll = s.pll) ∧
  (∀ s t : State, s.atTurn → step s = .next t → t.st ≠ 0x0#4)

/-- R221 to R225: a turn that enters FATAL records its state in `fstate` and, in `fcause`, the one cause that its state and
the answers it got raise. -/
def Obligations.FaultEntryRecordsStateAndCause : Prop :=
  ∀ s t : State, s.atTurn → s.st ≠ 0xF#4 → step s = .next t → t.st = 0xF#4 →
    t.fstate = s.st ∧ t.held.fstate = true ∧
    ((t.fcause = 1#3 ∧ s.st = 0x0#4 ∧ s.pll.m = 0#6 ∧ t.freq = s.freq ∧ t.out = s.out) ∨
     (t.fcause = 2#3 ∧ s.st = 0x1#4 ∧ s.draws.handleOk = false ∧ t.out = s.out) ∨
     (t.fcause = 3#3 ∧ (s.st = 0x2#4 ∨ s.st = 0x6#4 ∨ s.st = 0x9#4) ∧ s.draws.writeOk = false ∧
       s.writeMayFail = true ∧ (s.st = 0x9#4 → t.out = s.out)) ∨
     (t.fcause = 4#3 ∧ ((0xA#4 ≤ s.st) ∨ (s.st = 0x6#4 ∧ s.kind = 0#2)) ∧ t.out = s.out))

/-- R170, R226, R227: FATAL is absorbing: over any number of steps, whatever the environment does, the machine stays in FATAL,
and no latch of the block and nothing in `out` changes. That each of those steps answers a next state is the model's choice
of log 8: R170 itself has no enabled step, and permits the stutter. -/
def Obligations.FatalIsAbsorbing : Prop :=
  ∀ (n : Nat) (s : State), s.st = 0xF#4 →
    ∃ t : State, run n s = .next t ∧ t.st = 0xF#4 ∧ t.fcause = s.fcause ∧ t.fstate = s.fstate ∧
      t.out = s.out ∧ t.freq = s.freq ∧ t.snap = s.snap ∧ t.kind = s.kind ∧ t.rxb = s.rxb ∧ t.held = s.held ∧
      t.observation = s.observation

/-- R35: with `WRITE_MAY_FAIL` = false (the field of log 13) no turn enters FATAL with WRITE_FAIL. -/
def Obligations.WritesNeverFailWithoutTheParameter : Prop :=
  ∀ s t : State, s.writeMayFail = false → s.st ≠ 0xF#4 → step s = .next t → t.st = 0xF#4 → t.fcause ≠ 3#3

/-! ## The invariant of the reachable states -/

/-- R38, R260: the invariant holds after reset, for every PLL field and every agenda. The invariant reads no value that the
model chose for a latch (log 4), only the held bits. -/
def Obligations.InvariantHoldsAtReset : Prop := ∀ pll agenda, StateInv (State.resetWith pll agenda)

/-- R178, R38, R23, R101, R267: every step, of the sequencer or of the environment, keeps the invariant: only legal codes; in
FATAL a record that a rule makes, else none; no latch read before it is written; the class agrees with the path; the snapshot's
byte and flags are there until the consuming read; ECHO only with `txe` seen and still 1. -/
def Obligations.EveryStepKeepsTheInvariant : Prop := ∀ s t : State, StateInv s → step s = .next t → StateInv t

/-- R82, R178: in a state that meets the invariant the machine is never stuck: a step answers a next state. In FATAL, where R178
has no step, it is the stutter that R170 permits, the model's choice of log 8. -/
def Obligations.InvariantStatesAreNeverStuck : Prop := ∀ s : State, StateInv s → ∃ t, step s = .next t

/-- R85, R178: from reset with any PLL fields and any environment, any number of steps answers a next state, and it meets the
invariant. That a run goes on after it has entered FATAL is the stutter of log 8. -/
def Obligations.EveryRunFromResetIsSafe : Prop :=
  ∀ (pll : Pll) (agenda : List Event) (n : Nat),
    ∃ t : State, run n (State.resetWith pll agenda) = .next t ∧ StateInv t

/-! ## Runs over an iteration -/

/-- R132: the startup sequence PLL_SAMPLE, ACQUIRE, SYSCLK_REPORT, WAIT_RX: with `m` ≠ 0, the handle acquired and the report
written, the three turns, whatever the environment does between them, lead to WAIT_RX with exactly the startup line in `out`,
spelling the truncated frequency. -/
def Obligations.StartupReportsTheFrequency : Prop :=
  ∀ (c : Pll) (agenda : List Event) (t0 t1 t2 : Turn),
    (State.resetWith c agenda).st = 0x0#4 ∧
    (c.m ≠ 0#6 →
      (∃ a, (State.resetWith c agenda).runTurns [t0] = .next a ∧ a.st = 0x1#4 ∧ a.out = []) ∧
      (t1.draws.handleOk = true →
        (∃ b, (State.resetWith c agenda).runTurns [t0, t1] = .next b ∧ b.st = 0x2#4 ∧ b.out = []) ∧
        (t2.draws.writeOk = true →
          ∃ t, (State.resetWith c agenda).runTurns [t0, t1, t2] = .next t ∧ t.st = 0x3#4 ∧ t.fcause = 0#3 ∧
            ∃ f, pllFreq c.m.toNat c.n.toNat c.p.toNat = .value f ∧
              t.out = sysclkHead ++ dec f ++ sysclkTail)))

/-- R172: an iteration whose snapshot has a fault flag set goes WAIT_RX, CLASSIFY, DRAIN, REPORT_FAULT and back, and appends
exactly the message of the highest-priority flag (no ECHO, so no WriteDR); if the write fails it appends the drawn prefix of
that message and is in FATAL with `fcause` 3. The environment may move between the turns. -/
def Obligations.FaultIterationEmitsExactlyOneMessage : Prop :=
  ∀ (s : State) (t0 t1 t2 t3 : Turn) (u : Uart) (msg : List Byte),
    s.st = 0x3#4 → u = s.uart.afterMoves t0.moves → u.rxne = true → (u.pe || u.fe || u.ore) = true →
    msg = (if u.pe then msgParity else if u.fe then msgFraming else msgOverrun) →
    (∃ a, s.runTurns [t0] = .next a ∧ a.st = 0x4#4 ∧ a.out = s.out) ∧
    (∃ b, s.runTurns [t0, t1] = .next b ∧ b.st = 0x5#4 ∧ b.out = s.out) ∧
    (∃ c, s.runTurns [t0, t1, t2] = .next c ∧ c.st = 0x6#4 ∧ c.out = s.out) ∧
    (t3.draws.writeOk = true ∨ s.writeMayFail = false →
      ∃ t, s.runTurns [t0, t1, t2, t3] = .next t ∧ t.st = 0x3#4 ∧ t.fcause = s.fcause ∧ t.out = s.out ++ msg) ∧
    (t3.draws.writeOk = false → s.writeMayFail = true →
      ∃ t, s.runTurns [t0, t1, t2, t3] = .next t ∧ t.st = 0xF#4 ∧ t.fcause = 3#3 ∧ t.fstate = 0x6#4 ∧
        t.out = s.out ++ msg.take t3.draws.sent)

/-- R173: an iteration whose snapshot has no fault flag set goes WAIT_RX, CLASSIFY, READ, any number of WAIT_TX turns that see
`txe` = 0 (`ws`), one that sees 1 (`t4`), and ECHO, with nothing appended to `out` on the way; it appends exactly the byte that
is in `rdr` at READ, after a WAIT_TX that saw `txe` = 1; if the write fails it appends nothing and is in FATAL with `fcause` 3.
With no arrival between the snapshot and READ the byte is the one that was there at the snapshot. -/
def Obligations.ValidIterationEchoesTheByte : Prop :=
  ∀ (s : State) (t0 t1 t2 t4 t5 : Turn) (ws : List Turn) (u : Uart) (b : Byte),
    s.st = 0x3#4 → u = s.uart.afterMoves t0.moves → u.rxne = true → (u.pe || u.fe || u.ore) = false →
    b = (s.uart.afterMoves (movesOf [t0, t1, t2])).rdr →
    (∀ k, k < ws.length → (s.uart.afterMoves (movesOf ([t0, t1, t2] ++ ws.take (k + 1)))).txe = false) →
    (s.uart.afterMoves (movesOf ([t0, t1, t2] ++ ws ++ [t4]))).txe = true →
    (∃ a, s.runTurns [t0] = .next a ∧ a.st = 0x4#4 ∧ a.out = s.out) ∧
    (∃ a, s.runTurns [t0, t1] = .next a ∧ a.st = 0x7#4 ∧ a.kind = 0#2 ∧ a.out = s.out) ∧
    (∀ k, k ≤ ws.length →
      ∃ a, s.runTurns ([t0, t1, t2] ++ ws.take k) = .next a ∧ a.st = 0x8#4 ∧ a.rxb = b ∧ a.out = s.out) ∧
    (∃ c, s.runTurns ([t0, t1, t2] ++ ws ++ [t4]) = .next c ∧ c.st = 0x9#4 ∧ c.rxb = b ∧ c.out = s.out ∧
      ∃ v, c.uart.seen = some v ∧ v.txe = true) ∧
    (t5.draws.writeOk = true ∨ s.writeMayFail = false →
      ∃ t, s.runTurns ([t0, t1, t2] ++ ws ++ [t4, t5]) = .next t ∧ t.st = 0x3#4 ∧ t.fcause = s.fcause ∧
        t.out = s.out ++ [b]) ∧
    (t5.draws.writeOk = false → s.writeMayFail = true →
      ∃ t, s.runTurns ([t0, t1, t2] ++ ws ++ [t4, t5]) = .next t ∧ t.st = 0xF#4 ∧ t.fcause = 3#3 ∧ t.fstate = 0x9#4 ∧
        t.out = s.out) ∧
    ((∀ m ∈ movesOf [t1, t2], m.isArrive = false) → b = u.rdr)

/-- R174: after a fault iteration with no arrival between its snapshot and its DRAIN the peripheral holds no byte and no fault
flag. If its message is written and the next arrival is one without fault flags, with no other before a WAIT_RX sees it (`ws`
are the WAIT_RX turns that see none), it is classified VALID: no fault state leaks. And it is echoed, after any number of
WAIT_TX turns that see `txe` = 0 (`xs`) and one that sees 1 (`t7`), where no arrival in the window before READ replaces the
byte (R75, R266) and the write of the echo succeeds. -/
def Obligations.DrainedFaultDoesNotLeak : Prop :=
  ∀ (s : State) (t0 t1 t2 t3 t4 t5 t6 t7 t8 : Turn) (ws xs : List Turn) (u : Uart) (msg : List Byte) (b : Byte) (r : Bool),
    s.st = 0x3#4 → u = s.uart.afterMoves t0.moves → u.rxne = true → (u.pe || u.fe || u.ore) = true →
    msg = (if u.pe then msgParity else if u.fe then msgFraming else msgOverrun) →
    (∀ m ∈ movesOf [t1, t2], m.isArrive = false) →
    (∃ c, s.runTurns [t0, t1, t2] = .next c ∧ c.uart.rxne = false ∧ c.uart.pe = false ∧ c.uart.fe = false ∧
      c.uart.ore = false) ∧
    ((t3.draws.writeOk = true ∨ s.writeMayFail = false) →
      (movesOf ([t3] ++ ws ++ [t4])).filter Move.isArrive = [.arrive b false false r] →
      (ws ≠ [] → ∀ m ∈ movesOf ([t3] ++ ws), m.isArrive = false) →
      (∃ c, s.runTurns ([t0, t1, t2, t3] ++ ws ++ [t4, t5]) = .next c ∧ c.kind = 0#2 ∧ c.st = 0x7#4 ∧
        c.out = s.out ++ msg) ∧
      ((∀ c p f, Move.arrive c p f true ∉ movesOf [t5, t6]) →
        (xs ≠ [] → t3.draws.txe = false ∧ Move.txDone ∉ movesOf (ws ++ [t4, t5, t6] ++ xs)) →
        (t3.draws.txe = true ∨ Move.txDone ∈ movesOf (ws ++ [t4, t5, t6] ++ xs ++ [t7])) →
        (t8.draws.writeOk = true ∨ s.writeMayFail = false) →
        ∃ t, s.runTurns ([t0, t1, t2, t3] ++ ws ++ [t4, t5, t6] ++ xs ++ [t7, t8]) = .next t ∧ t.st = 0x3#4 ∧
          t.out = s.out ++ msg ++ [b]))

/-- R177, R273: WAIT_RX has no bound: over any turns in which no byte arrives it stays in WAIT_RX with `out` and the latches
unchanged; and the turn after an arrival leaves it for CLASSIFY. -/
def Obligations.WaitRxLeavesOnlyAfterAnArrival : Prop :=
  ∀ (s : State) (ts : List Turn) (t0 : Turn),
    s.st = 0x3#4 → s.uart.rxne = false → (∀ m ∈ movesOf ts, m.isArrive = false) →
    (∃ t, s.runTurns ts = .next t ∧ t.st = 0x3#4 ∧ t.uart.rxne = false ∧ t.out = s.out ∧ t.snap = s.snap ∧
      t.kind = s.kind ∧ t.rxb = s.rxb ∧ t.freq = s.freq ∧ t.fcause = s.fcause ∧ t.fstate = s.fstate ∧ t.held = s.held) ∧
    ((∃ m ∈ t0.moves, m.isArrive = true) →
      ∃ t, s.runTurns (ts ++ [t0]) = .next t ∧ t.st = 0x4#4 ∧ t.out = s.out ∧ t.fcause = s.fcause)

/-- R177, R273: WAIT_TX has no bound: over any turns without `tx_done` it stays in WAIT_TX; and the turn after a `tx_done`
leaves it for ECHO. -/
def Obligations.WaitTxLeavesOnlyAfterTxDone : Prop :=
  ∀ (s : State) (ts : List Turn) (t0 : Turn), s.st = 0x8#4 → s.uart.txe = false → Move.txDone ∉ movesOf ts →
    (∃ t, s.runTurns ts = .next t ∧ t.st = 0x8#4 ∧ t.uart.txe = false ∧ t.out = s.out ∧ t.rxb = s.rxb) ∧
    (Move.txDone ∈ t0.moves → ∃ t, s.runTurns (ts ++ [t0]) = .next t ∧ t.st = 0x9#4 ∧ t.out = s.out ∧ t.rxb = s.rxb)

/-- R84, R273: under FAIR_TX every wait in WAIT_TX ends: some number of turns leads to ECHO, with the byte still held and
nothing written to `out`. -/
def Obligations.FairTransmitterEndsWaitTx : Prop :=
  ∀ (s : State) (turns : Nat → Turn), s.st = 0x8#4 → fairTx s turns →
    ∃ n t, s.runTurns (firstTurns turns n) = .next t ∧ t.st = 0x9#4 ∧ t.out = s.out ∧ t.rxb = s.rxb
end

