-- ==== Sys2Proof/Laws/State.lean ====
section
/-! SUPPORT. One lemma per field of State per named update: what the update does to that field. A proof rewrites with these
and never unfolds an update. -/

namespace Sys2Proof.Machine

variable (s : State)

/-! ### State.goto -/

@[simp] theorem State.goto_st (c : StCode) : (State.goto c s).st = c := rfl
@[simp] theorem State.goto_freq (c : StCode) : (State.goto c s).freq = s.freq := rfl
@[simp] theorem State.goto_snap (c : StCode) : (State.goto c s).snap = s.snap := rfl
@[simp] theorem State.goto_kind (c : StCode) : (State.goto c s).kind = s.kind := rfl
@[simp] theorem State.goto_rxb (c : StCode) : (State.goto c s).rxb = s.rxb := rfl
@[simp] theorem State.goto_fcause (c : StCode) : (State.goto c s).fcause = s.fcause := rfl
@[simp] theorem State.goto_fstate (c : StCode) : (State.goto c s).fstate = s.fstate := rfl
@[simp] theorem State.goto_out (c : StCode) : (State.goto c s).out = s.out := rfl
@[simp] theorem State.goto_held (c : StCode) : (State.goto c s).held = s.held := rfl
@[simp] theorem State.goto_pll (c : StCode) : (State.goto c s).pll = s.pll := rfl
@[simp] theorem State.goto_uart (c : StCode) : (State.goto c s).uart = s.uart := rfl
@[simp] theorem State.goto_writeMayFail (c : StCode) : (State.goto c s).writeMayFail = s.writeMayFail := rfl
@[simp] theorem State.goto_agenda (c : StCode) : (State.goto c s).agenda = s.agenda := rfl
@[simp] theorem State.goto_turns (c : StCode) : (State.goto c s).turns = s.turns := rfl

/-! ### State.setFreq -/

@[simp] theorem State.setFreq_st (f : BitVec 16) : (State.setFreq f s).st = s.st := rfl
@[simp] theorem State.setFreq_freq (f : BitVec 16) : (State.setFreq f s).freq = f := rfl
@[simp] theorem State.setFreq_snap (f : BitVec 16) : (State.setFreq f s).snap = s.snap := rfl
@[simp] theorem State.setFreq_kind (f : BitVec 16) : (State.setFreq f s).kind = s.kind := rfl
@[simp] theorem State.setFreq_rxb (f : BitVec 16) : (State.setFreq f s).rxb = s.rxb := rfl
@[simp] theorem State.setFreq_fcause (f : BitVec 16) : (State.setFreq f s).fcause = s.fcause := rfl
@[simp] theorem State.setFreq_fstate (f : BitVec 16) : (State.setFreq f s).fstate = s.fstate := rfl
@[simp] theorem State.setFreq_out (f : BitVec 16) : (State.setFreq f s).out = s.out := rfl
@[simp] theorem State.setFreq_held (f : BitVec 16) : (State.setFreq f s).held = { s.held with freq := true } := rfl
@[simp] theorem State.setFreq_pll (f : BitVec 16) : (State.setFreq f s).pll = s.pll := rfl
@[simp] theorem State.setFreq_uart (f : BitVec 16) : (State.setFreq f s).uart = s.uart := rfl
@[simp] theorem State.setFreq_writeMayFail (f : BitVec 16) : (State.setFreq f s).writeMayFail = s.writeMayFail := rfl
@[simp] theorem State.setFreq_agenda (f : BitVec 16) : (State.setFreq f s).agenda = s.agenda := rfl
@[simp] theorem State.setFreq_turns (f : BitVec 16) : (State.setFreq f s).turns = s.turns := rfl

/-! ### State.setSnap -/

@[simp] theorem State.setSnap_st (v : Snap) : (State.setSnap v s).st = s.st := rfl
@[simp] theorem State.setSnap_freq (v : Snap) : (State.setSnap v s).freq = s.freq := rfl
@[simp] theorem State.setSnap_snap (v : Snap) : (State.setSnap v s).snap = v := rfl
@[simp] theorem State.setSnap_kind (v : Snap) : (State.setSnap v s).kind = s.kind := rfl
@[simp] theorem State.setSnap_rxb (v : Snap) : (State.setSnap v s).rxb = s.rxb := rfl
@[simp] theorem State.setSnap_fcause (v : Snap) : (State.setSnap v s).fcause = s.fcause := rfl
@[simp] theorem State.setSnap_fstate (v : Snap) : (State.setSnap v s).fstate = s.fstate := rfl
@[simp] theorem State.setSnap_out (v : Snap) : (State.setSnap v s).out = s.out := rfl
@[simp] theorem State.setSnap_held (v : Snap) : (State.setSnap v s).held = { s.held with snap := true } := rfl
@[simp] theorem State.setSnap_pll (v : Snap) : (State.setSnap v s).pll = s.pll := rfl
@[simp] theorem State.setSnap_uart (v : Snap) : (State.setSnap v s).uart = s.uart := rfl
@[simp] theorem State.setSnap_writeMayFail (v : Snap) : (State.setSnap v s).writeMayFail = s.writeMayFail := rfl
@[simp] theorem State.setSnap_agenda (v : Snap) : (State.setSnap v s).agenda = s.agenda := rfl
@[simp] theorem State.setSnap_turns (v : Snap) : (State.setSnap v s).turns = s.turns := rfl

/-! ### State.setKind -/

@[simp] theorem State.setKind_st (k : KindCode) : (State.setKind k s).st = s.st := rfl
@[simp] theorem State.setKind_freq (k : KindCode) : (State.setKind k s).freq = s.freq := rfl
@[simp] theorem State.setKind_snap (k : KindCode) : (State.setKind k s).snap = s.snap := rfl
@[simp] theorem State.setKind_kind (k : KindCode) : (State.setKind k s).kind = k := rfl
@[simp] theorem State.setKind_rxb (k : KindCode) : (State.setKind k s).rxb = s.rxb := rfl
@[simp] theorem State.setKind_fcause (k : KindCode) : (State.setKind k s).fcause = s.fcause := rfl
@[simp] theorem State.setKind_fstate (k : KindCode) : (State.setKind k s).fstate = s.fstate := rfl
@[simp] theorem State.setKind_out (k : KindCode) : (State.setKind k s).out = s.out := rfl
@[simp] theorem State.setKind_held (k : KindCode) : (State.setKind k s).held = { s.held with kind := true } := rfl
@[simp] theorem State.setKind_pll (k : KindCode) : (State.setKind k s).pll = s.pll := rfl
@[simp] theorem State.setKind_uart (k : KindCode) : (State.setKind k s).uart = s.uart := rfl
@[simp] theorem State.setKind_writeMayFail (k : KindCode) : (State.setKind k s).writeMayFail = s.writeMayFail := rfl
@[simp] theorem State.setKind_agenda (k : KindCode) : (State.setKind k s).agenda = s.agenda := rfl
@[simp] theorem State.setKind_turns (k : KindCode) : (State.setKind k s).turns = s.turns := rfl

/-! ### State.setRxb -/

@[simp] theorem State.setRxb_st (b : Byte) : (State.setRxb b s).st = s.st := rfl
@[simp] theorem State.setRxb_freq (b : Byte) : (State.setRxb b s).freq = s.freq := rfl
@[simp] theorem State.setRxb_snap (b : Byte) : (State.setRxb b s).snap = s.snap := rfl
@[simp] theorem State.setRxb_kind (b : Byte) : (State.setRxb b s).kind = s.kind := rfl
@[simp] theorem State.setRxb_rxb (b : Byte) : (State.setRxb b s).rxb = b := rfl
@[simp] theorem State.setRxb_fcause (b : Byte) : (State.setRxb b s).fcause = s.fcause := rfl
@[simp] theorem State.setRxb_fstate (b : Byte) : (State.setRxb b s).fstate = s.fstate := rfl
@[simp] theorem State.setRxb_out (b : Byte) : (State.setRxb b s).out = s.out := rfl
@[simp] theorem State.setRxb_held (b : Byte) : (State.setRxb b s).held = { s.held with rxb := true } := rfl
@[simp] theorem State.setRxb_pll (b : Byte) : (State.setRxb b s).pll = s.pll := rfl
@[simp] theorem State.setRxb_uart (b : Byte) : (State.setRxb b s).uart = s.uart := rfl
@[simp] theorem State.setRxb_writeMayFail (b : Byte) : (State.setRxb b s).writeMayFail = s.writeMayFail := rfl
@[simp] theorem State.setRxb_agenda (b : Byte) : (State.setRxb b s).agenda = s.agenda := rfl
@[simp] theorem State.setRxb_turns (b : Byte) : (State.setRxb b s).turns = s.turns := rfl

/-! ### State.setUart -/

@[simp] theorem State.setUart_st (u : Uart) : (State.setUart u s).st = s.st := rfl
@[simp] theorem State.setUart_freq (u : Uart) : (State.setUart u s).freq = s.freq := rfl
@[simp] theorem State.setUart_snap (u : Uart) : (State.setUart u s).snap = s.snap := rfl
@[simp] theorem State.setUart_kind (u : Uart) : (State.setUart u s).kind = s.kind := rfl
@[simp] theorem State.setUart_rxb (u : Uart) : (State.setUart u s).rxb = s.rxb := rfl
@[simp] theorem State.setUart_fcause (u : Uart) : (State.setUart u s).fcause = s.fcause := rfl
@[simp] theorem State.setUart_fstate (u : Uart) : (State.setUart u s).fstate = s.fstate := rfl
@[simp] theorem State.setUart_out (u : Uart) : (State.setUart u s).out = s.out := rfl
@[simp] theorem State.setUart_held (u : Uart) : (State.setUart u s).held = s.held := rfl
@[simp] theorem State.setUart_pll (u : Uart) : (State.setUart u s).pll = s.pll := rfl
@[simp] theorem State.setUart_uart (u : Uart) : (State.setUart u s).uart = u := rfl
@[simp] theorem State.setUart_writeMayFail (u : Uart) : (State.setUart u s).writeMayFail = s.writeMayFail := rfl
@[simp] theorem State.setUart_agenda (u : Uart) : (State.setUart u s).agenda = s.agenda := rfl
@[simp] theorem State.setUart_turns (u : Uart) : (State.setUart u s).turns = s.turns := rfl

/-! ### State.send -/

@[simp] theorem State.send_st (bytes : List Byte) : (State.send bytes s).st = s.st := rfl
@[simp] theorem State.send_freq (bytes : List Byte) : (State.send bytes s).freq = s.freq := rfl
@[simp] theorem State.send_snap (bytes : List Byte) : (State.send bytes s).snap = s.snap := rfl
@[simp] theorem State.send_kind (bytes : List Byte) : (State.send bytes s).kind = s.kind := rfl
@[simp] theorem State.send_rxb (bytes : List Byte) : (State.send bytes s).rxb = s.rxb := rfl
@[simp] theorem State.send_fcause (bytes : List Byte) : (State.send bytes s).fcause = s.fcause := rfl
@[simp] theorem State.send_fstate (bytes : List Byte) : (State.send bytes s).fstate = s.fstate := rfl
@[simp] theorem State.send_out (bytes : List Byte) : (State.send bytes s).out = s.out ++ bytes := rfl
@[simp] theorem State.send_held (bytes : List Byte) : (State.send bytes s).held = s.held := rfl
@[simp] theorem State.send_pll (bytes : List Byte) : (State.send bytes s).pll = s.pll := rfl
@[simp] theorem State.send_uart (bytes : List Byte) : (State.send bytes s).uart = s.uart := rfl
@[simp] theorem State.send_writeMayFail (bytes : List Byte) : (State.send bytes s).writeMayFail = s.writeMayFail := rfl
@[simp] theorem State.send_agenda (bytes : List Byte) : (State.send bytes s).agenda = s.agenda := rfl
@[simp] theorem State.send_turns (bytes : List Byte) : (State.send bytes s).turns = s.turns := rfl

/-! ### State.raiseFatal -/

@[simp] theorem State.raiseFatal_st (c : CauseCode) : (State.raiseFatal c s).st = 0xF#4 := rfl
@[simp] theorem State.raiseFatal_freq (c : CauseCode) : (State.raiseFatal c s).freq = s.freq := rfl
@[simp] theorem State.raiseFatal_snap (c : CauseCode) : (State.raiseFatal c s).snap = s.snap := rfl
@[simp] theorem State.raiseFatal_kind (c : CauseCode) : (State.raiseFatal c s).kind = s.kind := rfl
@[simp] theorem State.raiseFatal_rxb (c : CauseCode) : (State.raiseFatal c s).rxb = s.rxb := rfl
@[simp] theorem State.raiseFatal_fcause (c : CauseCode) : (State.raiseFatal c s).fcause = c := rfl
@[simp] theorem State.raiseFatal_fstate (c : CauseCode) : (State.raiseFatal c s).fstate = s.st := rfl
@[simp] theorem State.raiseFatal_out (c : CauseCode) : (State.raiseFatal c s).out = s.out := rfl
@[simp] theorem State.raiseFatal_held (c : CauseCode) : (State.raiseFatal c s).held = { s.held with fstate := true } := rfl
@[simp] theorem State.raiseFatal_pll (c : CauseCode) : (State.raiseFatal c s).pll = s.pll := rfl
@[simp] theorem State.raiseFatal_uart (c : CauseCode) : (State.raiseFatal c s).uart = s.uart := rfl
@[simp] theorem State.raiseFatal_writeMayFail (c : CauseCode) : (State.raiseFatal c s).writeMayFail = s.writeMayFail := rfl
@[simp] theorem State.raiseFatal_agenda (c : CauseCode) : (State.raiseFatal c s).agenda = s.agenda := rfl
@[simp] theorem State.raiseFatal_turns (c : CauseCode) : (State.raiseFatal c s).turns = s.turns := rfl

/-! ### State.makeMove -/

@[simp] theorem State.makeMove_st (m : Move) (rest : List Event) : (State.makeMove m rest s).st = s.st := rfl
@[simp] theorem State.makeMove_freq (m : Move) (rest : List Event) : (State.makeMove m rest s).freq = s.freq := rfl
@[simp] theorem State.makeMove_snap (m : Move) (rest : List Event) : (State.makeMove m rest s).snap = s.snap := rfl
@[simp] theorem State.makeMove_kind (m : Move) (rest : List Event) : (State.makeMove m rest s).kind = s.kind := rfl
@[simp] theorem State.makeMove_rxb (m : Move) (rest : List Event) : (State.makeMove m rest s).rxb = s.rxb := rfl
@[simp] theorem State.makeMove_fcause (m : Move) (rest : List Event) : (State.makeMove m rest s).fcause = s.fcause := rfl
@[simp] theorem State.makeMove_fstate (m : Move) (rest : List Event) : (State.makeMove m rest s).fstate = s.fstate := rfl
@[simp] theorem State.makeMove_out (m : Move) (rest : List Event) : (State.makeMove m rest s).out = s.out := rfl
@[simp] theorem State.makeMove_held (m : Move) (rest : List Event) : (State.makeMove m rest s).held = s.held := rfl
@[simp] theorem State.makeMove_pll (m : Move) (rest : List Event) : (State.makeMove m rest s).pll = s.pll := rfl
@[simp] theorem State.makeMove_uart (m : Move) (rest : List Event) : (State.makeMove m rest s).uart = s.uart.afterMove m := rfl
@[simp] theorem State.makeMove_writeMayFail (m : Move) (rest : List Event) : (State.makeMove m rest s).writeMayFail = s.writeMayFail := rfl
@[simp] theorem State.makeMove_agenda (m : Move) (rest : List Event) : (State.makeMove m rest s).agenda = rest := rfl
@[simp] theorem State.makeMove_turns (m : Move) (rest : List Event) : (State.makeMove m rest s).turns = s.turns := rfl

/-! ### State.endTurn -/

@[simp] theorem State.endTurn_st : (State.endTurn s).st = s.st := rfl
@[simp] theorem State.endTurn_freq : (State.endTurn s).freq = s.freq := rfl
@[simp] theorem State.endTurn_snap : (State.endTurn s).snap = s.snap := rfl
@[simp] theorem State.endTurn_kind : (State.endTurn s).kind = s.kind := rfl
@[simp] theorem State.endTurn_rxb : (State.endTurn s).rxb = s.rxb := rfl
@[simp] theorem State.endTurn_fcause : (State.endTurn s).fcause = s.fcause := rfl
@[simp] theorem State.endTurn_fstate : (State.endTurn s).fstate = s.fstate := rfl
@[simp] theorem State.endTurn_out : (State.endTurn s).out = s.out := rfl
@[simp] theorem State.endTurn_held : (State.endTurn s).held = s.held := rfl
@[simp] theorem State.endTurn_pll : (State.endTurn s).pll = s.pll := rfl
@[simp] theorem State.endTurn_uart : (State.endTurn s).uart = s.uart := rfl
@[simp] theorem State.endTurn_writeMayFail : (State.endTurn s).writeMayFail = s.writeMayFail := rfl
@[simp] theorem State.endTurn_agenda : (State.endTurn s).agenda = agendaAfterTurn s.agenda := rfl
@[simp] theorem State.endTurn_turns : (State.endTurn s).turns = s.turns + 1 := rfl

end Sys2Proof.Machine
end

