-- ==== Sys2Proof/Laws/Ops.lean ====
section
/-! SUPPORT. What each shared operation can do, said once: ports, fault entry, the environment's moves, the draws. A proof cites
these and does not unfold the operation. -/

namespace Sys2Proof.Machine

/-! ### The draws -/

theorem draws_of_go {s : State} {d : Draws} {rest : List Event} (h : s.agenda = .go d :: rest) : s.draws = d := by
  simp [State.draws, h]

theorem draws_of_nil {s : State} (h : s.agenda = []) : s.draws = Config.freeDraws s.turns := by
  simp [State.draws, h]

/-- Two states with one agenda and one number of turns have the same draws. -/
theorem draws_congr {s t : State} (ha : t.agenda = s.agenda) (hn : t.turns = s.turns) : t.draws = s.draws := by
  simp [State.draws, ha, hn]

/-- A write answers ok exactly when the draw is ok or writes may not fail (R35). -/
theorem writeOk_iff (s : State) : s.writeOk = true ↔ s.draws.writeOk = true ∨ s.writeMayFail = false := by
  simp [State.writeOk]

theorem writeOk_false_iff (s : State) : s.writeOk = false ↔ s.draws.writeOk = false ∧ s.writeMayFail = true := by
  simp [State.writeOk]

/-! ### The ports -/

@[simp] theorem readSr_fst (s : State) : (readSr s).1 = s.uart.flags := rfl
@[simp] theorem readSr_snd (s : State) : (readSr s).2 = s.setUart { s.uart with seen := some s.uart.flags } := rfl
@[simp] theorem readDr_fst (s : State) : (readDr s).1 = s.uart.rdr := rfl
@[simp] theorem readDr_snd (s : State) : (readDr s).2 = s.setUart (s.uart.consumed s.draws) := rfl
@[simp] theorem emitString_fst (str : List Byte) (s : State) : (emitString str s).1 = s.writeOk := rfl
@[simp] theorem emitString_snd (str : List Byte) (s : State) :
    (emitString str s).2 = (s.send (s.delivered str)).setUart { s.uart with txe := s.draws.txe } := rfl

theorem delivered_of_ok {s : State} (h : s.writeOk = true) (str : List Byte) : s.delivered str = str := by
  simp [State.delivered, h]

theorem delivered_of_fail {s : State} (h : s.writeOk = false) (str : List Byte) :
    s.delivered str = str.take s.draws.sent := by
  simp [State.delivered, h]

/-- WriteDR's three cases (R82): stuck with `txe` = 0; ok; fail. -/
theorem writeDr_cases (b : Byte) (s : State) :
    (s.uart.txe = false ∧ writeDr b s = none) ∨
    (s.uart.txe = true ∧ s.writeOk = true ∧
      writeDr b s = some (true, (s.send [b]).setUart { s.uart with txe := false })) ∨
    (s.uart.txe = true ∧ s.writeOk = false ∧ writeDr b s = some (false, s)) := by
  cases ht : s.uart.txe <;> cases hw : s.writeOk <;> simp [writeDr, ht, hw]

/-- After an EmitString: the whole string and WAIT_RX, or a part of it and Fatal(WRITE_FAIL) (R81, R130, R165). -/
theorem afterWrite_emitString (str : List Byte) (s : State) :
    (s.writeOk = true ∧ afterWrite (emitString str s) =
      ((s.send str).setUart { s.uart with txe := s.draws.txe }).goto 0x3#4) ∨
    (s.writeOk = false ∧ afterWrite (emitString str s) =
      ((s.send (str.take s.draws.sent)).setUart { s.uart with txe := s.draws.txe }).raiseFatal causeWriteFail) := by
  cases hw : s.writeOk <;> simp [afterWrite, emitString, State.delivered, hw]

/-! ### Flags -/

@[simp] theorem flags_rxne (u : Uart) : u.flags.rxne = u.rxne := rfl
@[simp] theorem flags_txe (u : Uart) : u.flags.txe = u.txe := rfl
@[simp] theorem flags_pe (u : Uart) : u.flags.pe = u.pe := rfl
@[simp] theorem flags_fe (u : Uart) : u.flags.fe = u.fe := rfl
@[simp] theorem flags_ore (u : Uart) : u.flags.ore = u.ore := rfl
@[simp] theorem snapshot_eq (v : Flags) : v.snapshot = packSnap v.ore v.fe v.pe := rfl

@[simp] theorem packSnap_pe (ore fe pe : Bool) : (packSnap ore fe pe).getLsbD 0 = pe := by
  cases ore <;> cases fe <;> cases pe <;> rfl
@[simp] theorem packSnap_fe (ore fe pe : Bool) : (packSnap ore fe pe).getLsbD 1 = fe := by
  cases ore <;> cases fe <;> cases pe <;> rfl
@[simp] theorem packSnap_ore (ore fe pe : Bool) : (packSnap ore fe pe).getLsbD 2 = ore := by
  cases ore <;> cases fe <;> cases pe <;> rfl

/-- The class of a snapshot, by its flags (R162). -/
theorem classOf_packSnap (ore fe pe : Bool) :
    classOf (packSnap ore fe pe) = if pe then 1#2 else if fe then 2#2 else if ore then 3#2 else 0#2 := by
  cases ore <;> cases fe <;> cases pe <;> rfl

@[simp] theorem consumed_rxne (u : Uart) (d : Draws) : (u.consumed d).rxne = false := rfl
@[simp] theorem consumed_txe (u : Uart) (d : Draws) : (u.consumed d).txe = u.txe := rfl
@[simp] theorem consumed_rdr (u : Uart) (d : Draws) : (u.consumed d).rdr = u.rdr := rfl
@[simp] theorem consumed_rdrHeld (u : Uart) (d : Draws) : (u.consumed d).rdrHeld = u.rdrHeld := rfl
@[simp] theorem consumed_seen (u : Uart) (d : Draws) : (u.consumed d).seen = u.seen := rfl

/-- A consuming read clears a fault flag that the last ReadSR showed (R77). -/
theorem consumed_of_seen {u : Uart} {v : Flags} (h : u.seen = some v) (d : Draws) :
    (u.consumed d).pe = (if v.pe then false else u.pe && d.keepPe) ∧
    (u.consumed d).fe = (if v.fe then false else u.fe && d.keepFe) ∧
    (u.consumed d).ore = (if v.ore then false else u.ore && d.keepOre) := by
  simp [Uart.consumed, Uart.shown, flagAfterRead, h]

/-! ### Messages -/

@[simp] theorem messageOf_parity : messageOf 1#2 = some msgParity := rfl
@[simp] theorem messageOf_framing : messageOf 2#2 = some msgFraming := rfl
@[simp] theorem messageOf_overrun : messageOf 3#2 = some msgOverrun := rfl
@[simp] theorem messageOf_valid : messageOf 0#2 = none := rfl

/-- A fault class has a message; VALID has none (R102). -/
theorem messageOf_eq_none_iff (k : KindCode) : messageOf k = none ↔ k = 0#2 := by
  revert k; decide

/-! ### The environment's moves -/

/-- What no move of the environment does: it clears no latch, lowers no `txe`, writes no `seen`, makes `rdr` hold no less,
and changes `rdr` while a byte is pending only in an arrival that replaces it (R74 to R78). -/
theorem afterMove_duties (u : Uart) (m : Move) :
    (u.rxne = true → (u.afterMove m).rxne = true) ∧ (u.pe = true → (u.afterMove m).pe = true) ∧
    (u.fe = true → (u.afterMove m).fe = true) ∧ (u.ore = true → (u.afterMove m).ore = true) ∧
    (u.txe = true → (u.afterMove m).txe = true) ∧ (u.afterMove m).seen = u.seen ∧
    (u.rdrHeld = true → (u.afterMove m).rdrHeld = true) ∧
    ((u.afterMove m).rxne = true → u.rxne = true ∨ (u.afterMove m).rdrHeld = true) ∧
    (u.rxne = true → (u.afterMove m).rdr = u.rdr ∨ ∃ b p f, m = .arrive b p f true) := by
  cases m with
  | arrive b p f replace =>
    cases hr : u.rxne <;> cases replace <;> simp +contextual [Uart.afterMove, Uart.arrive, hr]
  | txDone => cases ht : u.txe <;> simp +contextual [Uart.afterMove, ht]

/-- `tx_done` leaves `txe` at 1 and changes nothing else (R76). -/
theorem afterMove_txDone (u : Uart) : u.afterMove .txDone = { u with txe := true } := by
  obtain ⟨_, txe, _, _, _, _, _, _⟩ := u
  cases txe <;> rfl

/-- An arrival does not touch `txe`. -/
theorem afterMove_arrive_txe (u : Uart) (b : Byte) (p f replace : Bool) :
    (u.afterMove (.arrive b p f replace)).txe = u.txe := by
  cases hr : u.rxne <;> simp [Uart.afterMove, Uart.arrive, hr]

/-! ### Answers -/

theorem endTurnOf_eq_next_iff (r : Result) (t : State) :
    endTurnOf r = .next t ↔ ∃ s, r = .next s ∧ t = s.endTurn := by
  cases r <;> simp [endTurnOf, eq_comm]

@[simp] theorem endTurnOf_next (s : State) : endTurnOf (.next s) = .next s.endTurn := rfl

@[simp] theorem agendaAfterTurn_go (d : Draws) (rest : List Event) : agendaAfterTurn (.go d :: rest) = rest := rfl
@[simp] theorem agendaAfterTurn_nil : agendaAfterTurn [] = [] := rfl

end Sys2Proof.Machine
end

