-- ==== Sys2Proof/Laws/PerInstr.lean ====
section
/-! SUPPORT. Statements about every operation as syntax, one lemma per constructor of Instr (30_encoding.md R110, R111). -/

namespace Sys2Proof.Laws.CodeFits

/-- The operation is well formed, and its code fits the width of its format (R110, R111). -/
def Statement (i : Instr) : Prop := i.wellFormed = true ∧ (encode i).bits < 2 ^ (encode i).width

theorem pllSample : Statement .pllSample := by unfold Statement; decide
theorem acquire : Statement .acquire := by unfold Statement; decide
theorem sysclkReport : Statement .sysclkReport := by unfold Statement; decide
theorem waitRx : Statement .waitRx := by unfold Statement; decide
theorem classify : Statement .classify := by unfold Statement; decide
theorem drain : Statement .drain := by unfold Statement; decide
theorem reportFault : Statement .reportFault := by unfold Statement; decide
theorem read : Statement .read := by unfold Statement; decide
theorem waitTx : Statement .waitTx := by unfold Statement; decide
theorem echo : Statement .echo := by unfold Statement; decide
theorem reservedA : Statement .reservedA := by unfold Statement; decide
theorem reservedB : Statement .reservedB := by unfold Statement; decide
theorem reservedC : Statement .reservedC := by unfold Statement; decide
theorem reservedD : Statement .reservedD := by unfold Statement; decide
theorem reservedE : Statement .reservedE := by unfold Statement; decide
theorem fatal : Statement .fatal := by unfold Statement; decide
theorem classOverrun : Statement .classOverrun := by unfold Statement; decide
theorem classValid : Statement .classValid := by unfold Statement; decide
theorem classParity (ore fe : Bool) : Statement (.classParity ore fe) := by
  cases ore <;> cases fe <;> unfold Statement <;> decide
theorem classFraming (ore : Bool) : Statement (.classFraming ore) := by
  cases ore <;> unfold Statement <;> decide

end Sys2Proof.Laws.CodeFits
end

