-- ==== Sys2Proof/Laws/Step.lean ====
section
/-! SUPPORT. What a step can do, said once (`step_cases`), and how a run begins. How a run over turns unfolds is in
Sys2Proof/Laws/Turn.lean (`runTurns_cons`). -/

namespace Sys2Proof.Machine

/-- The two kinds of step: a pending move is made, or the sequencer has its turn (R21, R73). -/
theorem step_cases {s t : State} (h : step s = .next t) :
    (∃ m rest, s.agenda = .move m :: rest ∧ t = s.makeMove m rest) ∨
    (s.atTurn ∧ ∃ s', exec (fetch s) s = .next s' ∧ t = s'.endTurn) := by
  unfold step at h
  split at h
  · next m rest ha => exact .inl ⟨m, rest, ha, by simpa using h.symm⟩
  · next hn =>
    obtain ⟨s', hs, ht⟩ := (endTurnOf_eq_next_iff _ _).1 h
    exact .inr ⟨hn, s', hs, ht⟩

theorem step_of_move {s : State} {m : Move} {rest : List Event} (h : s.agenda = .move m :: rest) :
    step s = .next (s.makeMove m rest) := by
  simp [step, h]

theorem step_of_atTurn {s : State} (h : s.atTurn) : step s = endTurnOf (exec (fetch s) s) := by
  unfold step
  split
  · next m rest ha => exact absurd ha (h m rest)
  · rfl

theorem atTurn_of_go {s : State} {d : Draws} {rest : List Event} (h : s.agenda = .go d :: rest) : s.atTurn := by
  intro m r hm; rw [h] at hm; cases hm

theorem atTurn_of_nil {s : State} (h : s.agenda = []) : s.atTurn := by
  intro m r hm; rw [h] at hm; cases hm

/-! ### The operation a state selects -/

theorem fetch_pllSample {s : State} (h : s.st = 0x0#4) : fetch s = .pllSample := by simp only [fetch, decode, h]; rfl
theorem fetch_acquire {s : State} (h : s.st = 0x1#4) : fetch s = .acquire := by simp only [fetch, decode, h]; rfl
theorem fetch_sysclkReport {s : State} (h : s.st = 0x2#4) : fetch s = .sysclkReport := by simp only [fetch, decode, h]; rfl
theorem fetch_waitRx {s : State} (h : s.st = 0x3#4) : fetch s = .waitRx := by simp only [fetch, decode, h]; rfl
theorem fetch_classify {s : State} (h : s.st = 0x4#4) : fetch s = .classify := by simp only [fetch, decode, h]; rfl
theorem fetch_drain {s : State} (h : s.st = 0x5#4) : fetch s = .drain := by simp only [fetch, decode, h]; rfl
theorem fetch_reportFault {s : State} (h : s.st = 0x6#4) : fetch s = .reportFault := by simp only [fetch, decode, h]; rfl
theorem fetch_read {s : State} (h : s.st = 0x7#4) : fetch s = .read := by simp only [fetch, decode, h]; rfl
theorem fetch_waitTx {s : State} (h : s.st = 0x8#4) : fetch s = .waitTx := by simp only [fetch, decode, h]; rfl
theorem fetch_echo {s : State} (h : s.st = 0x9#4) : fetch s = .echo := by simp only [fetch, decode, h]; rfl
theorem fetch_reservedA {s : State} (h : s.st = 0xA#4) : fetch s = .reservedA := by simp only [fetch, decode, h]; rfl
theorem fetch_reservedB {s : State} (h : s.st = 0xB#4) : fetch s = .reservedB := by simp only [fetch, decode, h]; rfl
theorem fetch_reservedC {s : State} (h : s.st = 0xC#4) : fetch s = .reservedC := by simp only [fetch, decode, h]; rfl
theorem fetch_reservedD {s : State} (h : s.st = 0xD#4) : fetch s = .reservedD := by simp only [fetch, decode, h]; rfl
theorem fetch_reservedE {s : State} (h : s.st = 0xE#4) : fetch s = .reservedE := by simp only [fetch, decode, h]; rfl
theorem fetch_fatal {s : State} (h : s.st = 0xF#4) : fetch s = .fatal := by simp only [fetch, decode, h]; rfl

/-! ### Runs -/

@[simp] theorem run_zero (s : State) : run 0 s = .next s := rfl

theorem run_succ_of_next {s t : State} (h : step s = .next t) (n : Nat) : run (n + 1) s = run n t := by
  simp [run, h]

/-- The host's run, one step unfolded. -/
theorem core_run_succ (M : Host.Core) (n : Nat) (s : M.State) :
    M.run (n + 1) s =
      match M.step s with
      | .next s' => M.run n s'
      | .fault r => .fault r
      | .refused r => .refused r := rfl

/-- `run` is the host's run of the machine. -/
theorem run_eq_core_run (n : Nat) (s : State) : run n s = Host.Core.run Sys2Proof.core n s := by
  induction n generalizing s with
  | zero => rfl
  | succ n ih =>
    refine Eq.trans ?_ (core_run_succ Sys2Proof.core n s).symm
    have hs : Sys2Proof.core.step s = step s := rfl
    rw [hs, run]
    cases step s with
    | next t => exact ih t
    | fault r => rfl
    | refused r => rfl

/-- Pending moves are made one after the other. -/
theorem run_moves (ms : List Move) (rest : List Event) (n : Nat) (s : State) :
    run (ms.length + n) { s with agenda := ms.map Event.move ++ rest } =
      run n { s with uart := s.uart.afterMoves ms, agenda := rest } := by
  induction ms generalizing s with
  | nil => simp [Uart.afterMoves]
  | cons m ms ih =>
    have hstep : step { s with agenda := (m :: ms).map Event.move ++ rest } =
        .next { s with uart := s.uart.afterMove m, agenda := ms.map Event.move ++ rest } := rfl
    rw [List.length_cons, Nat.add_right_comm, run_succ_of_next hstep]
    exact ih { s with uart := s.uart.afterMove m }

/-- The state in which a turn's operation runs: the turn's moves made, its draws first in the agenda. -/
def State.atTurnOf (s : State) (t : Turn) (ts : List Turn) : State :=
  { s with uart := s.uart.afterMoves t.moves, agenda := Event.go t.draws :: agendaOf ts }

theorem runTurns_nil (s : State) : s.runTurns [] = .next { s with agenda := [] } := rfl

/-- A run over turns sets the agenda itself: the one the state has does not matter. -/
theorem runTurns_agenda (s : State) (agenda : List Event) (ts : List Turn) :
    { s with agenda := agenda }.runTurns ts = s.runTurns ts := rfl

end Sys2Proof.Machine
end

