-- ==== Sys2Proof/Laws/Turn.lean ====
section
/-! SUPPORT. What a turn of the sequencer can do, said once: the rows of the next-state table of 41_serial_echo_loop.md R178 as
a relation (`TurnRow`), and the inversion of a turn into a row (`turn_cases`). Later proofs are by cases on the rows. -/

namespace Sys2Proof.Machine

/-- The rows of R178: `TurnRow s t` says by which row a turn in `s` leads to `t` (before the turn's draws are used up). -/
inductive TurnRow (s : State) : State → Prop where
  | pllZero (hst : s.st = 0x0#4) (hm : s.pll.m = 0#6) : TurnRow s (s.raiseFatal 1#3)
  | pllFreq (hst : s.st = 0x0#4) (hm : s.pll.m ≠ 0#6) : TurnRow s ((s.setFreq (pllFreq16 s.pll)).goto 0x1#4)
  | acquireOk (hst : s.st = 0x1#4) (hd : s.draws.handleOk = true) : TurnRow s (s.goto 0x2#4)
  | acquireFail (hst : s.st = 0x1#4) (hd : s.draws.handleOk = false) : TurnRow s (s.raiseFatal 2#3)
  | sysclkOk (hst : s.st = 0x2#4) (hw : s.writeOk = true) :
      TurnRow s (((s.send (sysclkLine s.freq)).setUart { s.uart with txe := s.draws.txe }).goto 0x3#4)
  | sysclkFail (hst : s.st = 0x2#4) (hw : s.writeOk = false) :
      TurnRow s (((s.send ((sysclkLine s.freq).take s.draws.sent)).setUart
        { s.uart with txe := s.draws.txe }).raiseFatal 3#3)
  | waitRxSpin (hst : s.st = 0x3#4) (hr : s.uart.rxne = false) :
      TurnRow s ((s.setUart { s.uart with seen := some s.uart.flags }).goto 0x3#4)
  | waitRxSnap (hst : s.st = 0x3#4) (hr : s.uart.rxne = true) :
      TurnRow s (((s.setUart { s.uart with seen := some s.uart.flags }).setSnap
        (packSnap s.uart.ore s.uart.fe s.uart.pe)).goto 0x4#4)
  | classify (hst : s.st = 0x4#4) : TurnRow s (s.enterClass (classOf s.snap))
  | drain (hst : s.st = 0x5#4) : TurnRow s ((s.setUart (s.uart.consumed s.draws)).goto 0x6#4)
  | reportOk (msg : List Byte) (hst : s.st = 0x6#4) (hk : messageOf s.kind = some msg) (hw : s.writeOk = true) :
      TurnRow s (((s.send msg).setUart { s.uart with txe := s.draws.txe }).goto 0x3#4)
  | reportFail (msg : List Byte) (hst : s.st = 0x6#4) (hk : messageOf s.kind = some msg) (hw : s.writeOk = false) :
      TurnRow s (((s.send (msg.take s.draws.sent)).setUart { s.uart with txe := s.draws.txe }).raiseFatal 3#3)
  | reportIllegal (hst : s.st = 0x6#4) (hk : s.kind = 0#2) : TurnRow s (s.raiseFatal 4#3)
  | read (hst : s.st = 0x7#4) :
      TurnRow s (((s.setUart (s.uart.consumed s.draws)).setRxb s.uart.rdr).goto 0x8#4)
  | waitTxSpin (hst : s.st = 0x8#4) (ht : s.uart.txe = false) :
      TurnRow s ((s.setUart { s.uart with seen := some s.uart.flags }).goto 0x8#4)
  | waitTxReady (hst : s.st = 0x8#4) (ht : s.uart.txe = true) :
      TurnRow s ((s.setUart { s.uart with seen := some s.uart.flags }).goto 0x9#4)
  | echoOk (hst : s.st = 0x9#4) (ht : s.uart.txe = true) (hw : s.writeOk = true) :
      TurnRow s (((s.send [s.rxb]).setUart { s.uart with txe := false }).goto 0x3#4)
  | echoFail (hst : s.st = 0x9#4) (ht : s.uart.txe = true) (hw : s.writeOk = false) : TurnRow s (s.raiseFatal 3#3)
  | reserved (hlo : 0xA#4 ≤ s.st) (hhi : s.st ≠ 0xF#4) : TurnRow s (s.raiseFatal 4#3)
  | fatal (hst : s.st = 0xF#4) : TurnRow s s

/-- The operation of each state code, and its code from the operation (R100, R101). -/
theorem decodeSt4_cases (v : StCode) :
    (v = 0x0#4 ∧ decodeSt4 v = .pllSample) ∨ (v = 0x1#4 ∧ decodeSt4 v = .acquire) ∨
    (v = 0x2#4 ∧ decodeSt4 v = .sysclkReport) ∨ (v = 0x3#4 ∧ decodeSt4 v = .waitRx) ∨
    (v = 0x4#4 ∧ decodeSt4 v = .classify) ∨ (v = 0x5#4 ∧ decodeSt4 v = .drain) ∨
    (v = 0x6#4 ∧ decodeSt4 v = .reportFault) ∨ (v = 0x7#4 ∧ decodeSt4 v = .read) ∨
    (v = 0x8#4 ∧ decodeSt4 v = .waitTx) ∨ (v = 0x9#4 ∧ decodeSt4 v = .echo) ∨
    ((0xA#4 ≤ v ∧ v ≠ 0xF#4) ∧ (decodeSt4 v = .reservedA ∨ decodeSt4 v = .reservedB ∨ decodeSt4 v = .reservedC ∨
      decodeSt4 v = .reservedD ∨ decodeSt4 v = .reservedE)) ∨
    (v = 0xF#4 ∧ decodeSt4 v = .fatal) := by
  revert v; decide

/-- A turn that answers a next state does so by a row of the table (R178). -/
theorem turn_cases {s t : State} (h : exec (fetch s) s = .next t) : TurnRow s t := by
  simp only [fetch, decode] at h
  rcases decodeSt4_cases s.st with ⟨hst, hi⟩ | ⟨hst, hi⟩ | ⟨hst, hi⟩ | ⟨hst, hi⟩ | ⟨hst, hi⟩ | ⟨hst, hi⟩ | ⟨hst, hi⟩ |
    ⟨hst, hi⟩ | ⟨hst, hi⟩ | ⟨hst, hi⟩ | ⟨hst, hi⟩ | ⟨hst, hi⟩
  · rw [hi] at h; injection h with h; subst h
    by_cases hm : s.pll.m = 0#6
    · simpa [samplePll, hm] using TurnRow.pllZero hst hm
    · simpa [samplePll, hm] using TurnRow.pllFreq hst hm
  · rw [hi] at h; injection h with h; subst h
    cases hd : s.draws.handleOk
    · simpa [acquireHandle, hd] using TurnRow.acquireFail hst hd
    · simpa [acquireHandle, hd] using TurnRow.acquireOk hst hd
  · rw [hi] at h; injection h with h; subst h
    rcases afterWrite_emitString (sysclkLine s.freq) s with ⟨hw, he⟩ | ⟨hw, he⟩ <;> rw [he]
    · exact .sysclkOk hst hw
    · exact .sysclkFail hst hw
  · rw [hi] at h; injection h with h; subst h
    cases hr : s.uart.rxne
    · simpa [hr] using TurnRow.waitRxSpin hst hr
    · simpa [hr] using TurnRow.waitRxSnap hst hr
  · rw [hi] at h; injection h with h; subst h; exact .classify hst
  · rw [hi] at h; injection h with h; subst h; exact .drain hst
  · rw [hi] at h; injection h with h; subst h
    cases hk : messageOf s.kind with
    | none => exact .reportIllegal hst ((messageOf_eq_none_iff _).1 hk)
    | some msg =>
      rcases afterWrite_emitString msg s with ⟨hw, he⟩ | ⟨hw, he⟩
      · exact (show TurnRow s (afterWrite (emitString msg s)) from he ▸ .reportOk msg hst hk hw)
      · exact (show TurnRow s (afterWrite (emitString msg s)) from he ▸ .reportFail msg hst hk hw)
  · rw [hi] at h; injection h with h; subst h; exact .read hst
  · rw [hi] at h; injection h with h; subst h
    cases ht : s.uart.txe
    · simpa [ht] using TurnRow.waitTxSpin hst ht
    · simpa [ht] using TurnRow.waitTxReady hst ht
  · rw [hi, exec, execEcho] at h
    rcases writeDr_cases s.rxb s with ⟨ht, he⟩ | ⟨ht, hw, he⟩ | ⟨ht, hw, he⟩ <;> rw [he] at h
    · cases h
    · injection h with h; subst h; exact .echoOk hst ht hw
    · injection h with h; subst h; exact .echoFail hst ht hw
  · rcases hi with hi | hi | hi | hi | hi <;> rw [hi] at h <;> injection h with h <;> subst h <;>
      exact .reserved hst.1 hst.2
  · rw [hi] at h; injection h with h; subst h; exact .fatal hst

/-- A step is a pending move, or a row of the table and the turn's end (R73, R178). -/
theorem step_rows {s t : State} (h : step s = .next t) :
    (∃ m rest, s.agenda = .move m :: rest ∧ t = s.makeMove m rest) ∨
    (s.atTurn ∧ ∃ s', TurnRow s s' ∧ t = s'.endTurn) := by
  rcases step_cases h with hm | ⟨ht, s', hs, rfl⟩
  · exact .inl hm
  · exact .inr ⟨ht, s', turn_cases hs, rfl⟩

/-- A turn's operation leaves the agenda and the count of turns alone. -/
theorem TurnRow.keeps_agenda {s t : State} (h : TurnRow s t) : t.agenda = s.agenda ∧ t.turns = s.turns := by
  cases h <;> exact ⟨rfl, rfl⟩

/-! ### Runs over turns -/

/-- A run over turns: the first turn's moves, its operation, then the rest, if the operation answers a next state. -/
theorem runTurns_cons {s s' : State} {t : Turn} {ts : List Turn}
    (h : exec (fetch s) (s.atTurnOf t ts) = .next s') : s.runTurns (t :: ts) = s'.endTurn.runTurns ts := by
  have ha : s'.agenda = .go t.draws :: agendaOf ts := (turn_cases (s := s.atTurnOf t ts) h).keeps_agenda.1
  have hlen : (agendaOf (t :: ts)).length = t.moves.length + ((agendaOf ts).length + 1) := by
    simp [agendaOf, Turn.events, Nat.add_comm]
  have hag : agendaOf (t :: ts) = t.moves.map Event.move ++ (Event.go t.draws :: agendaOf ts) := by
    simp [agendaOf, Turn.events]
  have hstep : step (s.atTurnOf t ts) = .next s'.endTurn := by
    rw [step_of_atTurn (atTurn_of_go rfl)]
    show endTurnOf (exec (fetch s) _) = _
    rw [h]; rfl
  have hend : s'.endTurn = { s'.endTurn with agenda := agendaOf ts } := by
    simp [State.endTurn, ha]
  unfold State.runTurns
  rw [hlen, hag, run_moves]
  exact (run_succ_of_next hstep _).trans (congrArg (run _) hend)

@[simp] theorem draws_atTurnOf (s : State) (t : Turn) (ts : List Turn) : (s.atTurnOf t ts).draws = t.draws := rfl

/-! ### Sequences of moves -/

@[simp] theorem afterMoves_nil (u : Uart) : u.afterMoves [] = u := rfl
@[simp] theorem afterMoves_cons (u : Uart) (m : Move) (ms : List Move) :
    u.afterMoves (m :: ms) = (u.afterMove m).afterMoves ms := rfl

theorem afterMoves_append (u : Uart) (ms ns : List Move) :
    u.afterMoves (ms ++ ns) = (u.afterMoves ms).afterMoves ns := by
  simp [Uart.afterMoves]

/-- What no sequence of moves does: it clears no latch, lowers no `txe` and writes no `seen` (R76, R78). -/
theorem afterMoves_duties (u : Uart) (ms : List Move) :
    (u.rxne = true → (u.afterMoves ms).rxne = true) ∧ (u.pe = true → (u.afterMoves ms).pe = true) ∧
    (u.fe = true → (u.afterMoves ms).fe = true) ∧ (u.ore = true → (u.afterMoves ms).ore = true) ∧
    (u.txe = true → (u.afterMoves ms).txe = true) ∧ (u.afterMoves ms).seen = u.seen := by
  induction ms generalizing u with
  | nil => simp
  | cons m ms ih =>
    obtain ⟨d1, d2, d3, d4, d5, d6, -⟩ := afterMove_duties u m
    obtain ⟨i1, i2, i3, i4, i5, i6⟩ := ih (u.afterMove m)
    exact ⟨i1 ∘ d1, i2 ∘ d2, i3 ∘ d3, i4 ∘ d4, i5 ∘ d5, i6.trans d6⟩

/-- Moves without an arrival change no receive flag and no data. -/
theorem afterMoves_of_no_arrival (u : Uart) {ms : List Move} (h : ∀ m ∈ ms, m.isArrive = false) :
    (u.afterMoves ms).rxne = u.rxne ∧ (u.afterMoves ms).pe = u.pe ∧ (u.afterMoves ms).fe = u.fe ∧
    (u.afterMoves ms).ore = u.ore ∧ (u.afterMoves ms).rdr = u.rdr := by
  induction ms generalizing u with
  | nil => simp
  | cons m ms ih =>
    have hm : m = .txDone := by
      have := h m (List.mem_cons_self ..)
      cases m <;> simp_all [Move.isArrive]
    subst hm
    simpa [afterMove_txDone] using ih { u with txe := true } (fun x hx => h x (List.mem_cons_of_mem _ hx))

/-- `txe` after a sequence of moves: it was 1, or a `tx_done` is among them (R76). -/
theorem afterMoves_txe (u : Uart) (ms : List Move) :
    (u.afterMoves ms).txe = true ↔ u.txe = true ∨ Move.txDone ∈ ms := by
  induction ms generalizing u with
  | nil => simp
  | cons m ms ih =>
    rw [afterMoves_cons, ih]
    cases m with
    | arrive b p f replace => simp [afterMove_arrive_txe]
    | txDone => simp [afterMove_txDone]

/-- What the last ReadSR showed does not matter to moves. -/
theorem afterMoves_seen (u : Uart) (v : Option Flags) (ms : List Move) :
    ({ u with seen := v } : Uart).afterMoves ms = { u.afterMoves ms with seen := v } := by
  induction ms generalizing u with
  | nil => rfl
  | cons m ms ih =>
    have hm : ({ u with seen := v } : Uart).afterMove m = { u.afterMove m with seen := v } := by
      cases m with
      | arrive b p f replace => cases h : u.rxne <;> simp [Uart.afterMove, Uart.arrive, h]
      | txDone => simp [afterMove_txDone]
    rw [afterMoves_cons, hm, ih, afterMoves_cons]

/-- A pending byte stays in `rdr` over moves without a replacing arrival (R75, duty DATA_STABLE). -/
theorem afterMoves_rdr_of_no_replacement (u : Uart) {ms : List Move} (h0 : u.rxne = true)
    (h : ∀ b p f, Move.arrive b p f true ∉ ms) : (u.afterMoves ms).rdr = u.rdr := by
  induction ms generalizing u with
  | nil => rfl
  | cons m ms ih =>
    have ht : ∀ b p f, Move.arrive b p f true ∉ ms := fun b p f hm => h b p f (List.mem_cons_of_mem _ hm)
    have hrx : (u.afterMove m).rxne = true := (afterMove_duties u m).1 h0
    have hrdr : (u.afterMove m).rdr = u.rdr := by
      cases m with
      | txDone => rw [afterMove_txDone]
      | arrive b p f replace =>
        cases replace with
        | true => exact absurd (List.mem_cons_self ..) (h b p f)
        | false => simp [Uart.afterMove, Uart.arrive, h0]
    rw [afterMoves_cons, ih _ hrx ht, hrdr]

end Sys2Proof.Machine
end

