-- ==== Sys2Proof/Tests/Slice0.lean ====
section
/-! SUPPORT. The model's own tests: the codes of spec/30_encoding.md R100, R101 and R104 written out bit by bit; vectors of
spec/95_test_vectors.md, one step each; and, for each statement with hypotheses, a state that meets them (`test_hyp_…`). -/

namespace Sys2Proof.Tests
open Sys2Proof Sys2Proof.Machine

/-! ## Helpers -/

/-- Every answer ok, `txe` 1 after a string, late flags cleared. -/
def okDraws : Draws :=
  { handleOk := true, writeOk := true, sent := 0, txe := true, keepPe := false, keepFe := false, keepOre := false }

/-- Every answer fail, `k` bytes of a string delivered, late flags kept. -/
def failDraws (k : Nat) : Draws :=
  { handleOk := false, writeOk := false, sent := k, txe := true, keepPe := true, keepFe := true, keepOre := true }

/-- A state at its turn with the code `c` and the draws `d`, else as after reset with the fields (4, 168, 1). -/
def stateAt (c : StCode) (d : Draws) : State :=
  { State.resetWith { m := 4#6, n := 168#9, p := 1#2 } [.go d] with st := c }

/-- That state with a peripheral of the given flags, all of them seen, and `rdr` = 0x55. -/
def withFlags (rxne txe pe fe ore : Bool) (s : State) : State :=
  s.setUart { rxne := rxne, txe := txe, pe := pe, fe := fe, ore := ore, rdr := 0x55#8, rdrHeld := true,
              seen := some { rxne := rxne, txe := txe, pe := pe, fe := fe, ore := ore } }

/-- The next state an answer holds. -/
def nextOf : Result → Option State
  | .next s => some s
  | _ => none

/-- The fields of the next state that a test looks at. -/
def looks (r : Result) (f : State → α) : Option α := (nextOf r).map f

/-! ## Encodings, bit by bit (R100, R101, R104) -/

theorem test_decode_pllSample : decodeTableWord 4 0b0000 = some .pllSample := by decide
theorem test_decode_acquire : decodeTableWord 4 0b0001 = some .acquire := by decide
theorem test_decode_sysclkReport : decodeTableWord 4 0b0010 = some .sysclkReport := by decide
theorem test_decode_waitRx : decodeTableWord 4 0b0011 = some .waitRx := by decide
theorem test_decode_classify : decodeTableWord 4 0b0100 = some .classify := by decide
theorem test_decode_drain : decodeTableWord 4 0b0101 = some .drain := by decide
theorem test_decode_reportFault : decodeTableWord 4 0b0110 = some .reportFault := by decide
theorem test_decode_read : decodeTableWord 4 0b0111 = some .read := by decide
theorem test_decode_waitTx : decodeTableWord 4 0b1000 = some .waitTx := by decide
theorem test_decode_echo : decodeTableWord 4 0b1001 = some .echo := by decide
theorem test_decode_reservedA : decodeTableWord 4 0b1010 = some .reservedA := by decide
theorem test_decode_reservedB : decodeTableWord 4 0b1011 = some .reservedB := by decide
theorem test_decode_reservedC : decodeTableWord 4 0b1100 = some .reservedC := by decide
theorem test_decode_reservedD : decodeTableWord 4 0b1101 = some .reservedD := by decide
theorem test_decode_reservedE : decodeTableWord 4 0b1110 = some .reservedE := by decide
theorem test_decode_fatal : decodeTableWord 4 0b1111 = some .fatal := by decide
theorem test_decode_classParity_of1 :
    decodeTableWord 3 0b001 = some (.classParity false false) ∧ decodeTableWord 3 0b011 = some (.classParity false true) ∧
    decodeTableWord 3 0b101 = some (.classParity true false) ∧ decodeTableWord 3 0b111 = some (.classParity true true) := by
  decide
theorem test_decode_classFraming_o10 :
    decodeTableWord 3 0b010 = some (.classFraming false) ∧ decodeTableWord 3 0b110 = some (.classFraming true) := by decide
theorem test_decode_classOverrun_100 : decodeTableWord 3 0b100 = some .classOverrun := by decide
theorem test_decode_classValid_000 : decodeTableWord 3 0b000 = some .classValid := by decide
/-- A whole byte is read as a state code (log 11). -/
theorem test_decode_byte : decodeTableWord 8 0b00001001 = some .echo := by decide

/-! ## What is refused. `Instr.wellFormed` has no check that a term could fail (R110); the checks are those of `readWord`. -/

theorem test_wellFormed_all_operands :
    (Instr.classParity true false).wellFormed = true ∧ (Instr.classFraming true).wellFormed = true ∧
    Instr.reservedC.wellFormed = true := by decide
theorem test_readWord_refuses_bits_above_a_state_code :
    readWord 4 0b10000 = .error .bitsAboveTheCode ∧ readWord 8 0b10000 = .error .bitsAboveTheCode := by decide
theorem test_readWord_refuses_bits_above_a_snapshot : readWord 3 0b1000 = .error .bitsAboveTheCode := by decide
theorem test_readWord_refuses_other_widths :
    readWord 0 0 = .error .noFormatOfThatWidth ∧ readWord 5 0 = .error .noFormatOfThatWidth ∧
    readWord 16 3 = .error .noFormatOfThatWidth := by decide

/-! ## Vectors of 95_test_vectors.md: the frequency, the spelling, the words -/

/-- V-PLL-1, V-PLL-7, V-PLL-9, V-PLL-13, V-PLL-17. -/
theorem test_freq_vectors :
    pllFreq16 { m := 4#6, n := 168#9, p := 1#2 } = 84#16 ∧ pllFreq16 { m := 1#6, n := 511#9, p := 0#2 } = 2044#16 ∧
    pllFreq16 { m := 63#6, n := 511#9, p := 3#2 } = 8#16 ∧ pllFreq16 { m := 3#6, n := 100#9, p := 0#2 } = 133#16 ∧
    pllFreq16 { m := 1#6, n := 0#9, p := 0#2 } = 0#16 := by decide
/-- R106: the divisor of each P-code. -/
theorem test_divisor_of_each_pcode :
    pllDivisor 0b00#2 = 2#16 ∧ pllDivisor 0b01#2 = 4#16 ∧ pllDivisor 0b10#2 = 6#16 ∧ pllDivisor 0b11#2 = 8#16 := by decide
/-- V-PLLW-1, V-PLLW-2. -/
theorem test_pll_words :
    pllOfWord 0x24012A04#32 = { m := 4#6, n := 168#9, p := 1#2 } ∧
    pllOfWord 0x24003010#32 = { m := 16#6, n := 192#9, p := 0#2 } := by decide
/-- V-DEC-1, V-DEC-3, V-DEC-4. -/
theorem test_dec_vectors :
    dec 0 = [0x30] ∧ dec 84 = [0x38, 0x34] ∧ dec 133 = [0x31, 0x33, 0x33] := by decide
/-- V-DEC-5. -/
theorem test_dec_2044 : dec 2044 = [0x32, 0x30, 0x34, 0x34] := by decide
/-- V-CLS-1, V-CLS-5, V-CLS-12, V-CLS-13, V-CLS-15 and the status 0x0A4 with NF: the combined decode of a status word (R107). -/
theorem test_status_words :
    classOfWord 0x080#10 = none ∧ classOfWord 0x088#10 = none ∧ classOfWord 0x0A3#10 = some 1#2 ∧
    classOfWord 0x0A8#10 = some 3#2 ∧ classOfWord 0x0AA#10 = some 2#2 ∧ classOfWord 0x0A4#10 = some 0#2 ∧
    txReadyOfWord 0x0A1#10 = true ∧ txReadyOfWord 0x020#10 = false := by decide

/-! ## The operations, one step each -/

/-- V-PLL-1. -/
theorem test_pllSample_84 :
    looks (exec .pllSample (stateAt 0x0#4 okDraws)) (fun t => (t.freq, t.st, t.held.freq)) = some (84#16, 0x1#4, true) := by
  decide
/-- V-FLT-1. -/
theorem test_pllSample_m0 :
    looks (exec .pllSample (State.resetWith { m := 0#6, n := 168#9, p := 1#2 } []))
      (fun t => (t.st, t.fcause, t.fstate, t.out, t.held.freq)) = some (0xF#4, 1#3, 0x0#4, [], false) := by decide
/-- P1 step 2. -/
theorem test_acquire_ok :
    looks (exec .acquire (stateAt 0x1#4 okDraws)) (fun t => (t.st, t.out)) = some (0x2#4, []) := by decide
/-- V-FLT-2. -/
theorem test_acquire_fail :
    looks (exec .acquire (stateAt 0x1#4 (failDraws 0))) (fun t => (t.st, t.fcause, t.fstate, t.out)) =
      some (0xF#4, 2#3, 0x1#4, []) := by decide
/-- L1-2: S84. -/
theorem test_sysclkReport_84 :
    looks (exec .sysclkReport { stateAt 0x2#4 okDraws with freq := 84#16 }) (fun t => (t.st, t.out)) =
      some (0x3#4, [0x73, 0x79, 0x73, 0x63, 0x6c, 0x6b, 0x3d, 0x38, 0x34, 0x4d, 0x48, 0x7a, 0x2e, 0x0d, 0x0a]) := by decide
/-- V-FLT-4. -/
theorem test_sysclkReport_fail_after_7 :
    looks (exec .sysclkReport { stateAt 0x2#4 (failDraws 7) with freq := 84#16 }) (fun t => (t.st, t.fcause, t.fstate, t.out)) =
      some (0xF#4, 3#3, 0x2#4, [0x73, 0x79, 0x73, 0x63, 0x6c, 0x6b, 0x3d]) := by decide
/-- V-CLS-8: fault flags without RXNE. -/
theorem test_waitRx_spins_on_flags_alone :
    looks (exec .waitRx (withFlags false true true true true (stateAt 0x3#4 okDraws))) (fun t => (t.st, t.snap, t.held.snap)) =
      some (0x3#4, 0b000#3, false) := by decide
/-- V-CLS-15. -/
theorem test_waitRx_snapshot_110 :
    looks (exec .waitRx (withFlags true true false true true (stateAt 0x3#4 okDraws))) (fun t => (t.st, t.snap)) =
      some (0x4#4, 0b110#3) := by decide
/-- V-CLS-12: parity over framing. -/
theorem test_classify_011 :
    looks (exec .classify { stateAt 0x4#4 okDraws with snap := 0b011#3 }) (fun t => (t.kind, t.st)) = some (1#2, 0x5#4) := by
  decide
/-- V-CLS-9. -/
theorem test_classify_000 :
    looks (exec .classify { stateAt 0x4#4 okDraws with snap := 0b000#3 }) (fun t => (t.kind, t.st)) = some (0#2, 0x7#4) := by
  decide
theorem test_classParity : looks (exec (.classParity true true) (stateAt 0x4#4 okDraws)) (fun t => (t.kind, t.st)) =
    some (1#2, 0x5#4) := by decide
theorem test_classFraming : looks (exec (.classFraming true) (stateAt 0x4#4 okDraws)) (fun t => (t.kind, t.st)) =
    some (2#2, 0x5#4) := by decide
theorem test_classOverrun : looks (exec .classOverrun (stateAt 0x4#4 okDraws)) (fun t => (t.kind, t.st)) =
    some (3#2, 0x5#4) := by decide
theorem test_classValid : looks (exec .classValid (stateAt 0x4#4 okDraws)) (fun t => (t.kind, t.st)) =
    some (0#2, 0x7#4) := by decide
/-- The example of R164 (V-ENV-5). -/
theorem test_drain_clears_the_latch :
    looks (exec .drain (withFlags true true true false false (stateAt 0x5#4 (failDraws 0))))
      (fun t => (t.st, t.uart.rxne, t.uart.pe, t.rxb)) = some (0x6#4, false, false, 0x00#8) := by decide
/-- V-ENV-6: a flag raised after the last ReadSR, kept. -/
theorem test_drain_keeps_a_late_flag :
    looks (exec .drain ((stateAt 0x5#4 (failDraws 0)).setUart
        { rxne := true, txe := true, pe := true, fe := false, ore := false, rdr := 0x55#8, rdrHeld := true,
          seen := some { rxne := true, txe := true, pe := false, fe := false, ore := false } }))
      (fun t => (t.uart.rxne, t.uart.pe)) = some (false, true) := by decide
/-- V-ENV-12: ten bytes of MSG_FRAMING. -/
theorem test_reportFault_fail_after_10 :
    looks (exec .reportFault { stateAt 0x6#4 (failDraws 10) with kind := 2#2 }) (fun t => (t.st, t.fcause, t.fstate, t.out)) =
      some (0xF#4, 3#3, 0x6#4, [0x0d, 0x0a, 0x46, 0x72, 0x61, 0x6d, 0x69, 0x6e, 0x67, 0x20]) := by decide
/-- V-FLT-10. -/
theorem test_reportFault_kind0 :
    looks (exec .reportFault (stateAt 0x6#4 okDraws)) (fun t => (t.st, t.fcause, t.fstate, t.out)) =
      some (0xF#4, 4#3, 0x6#4, []) := by decide
theorem test_read_takes_rdr :
    looks (exec .read (withFlags true true false false false (stateAt 0x7#4 okDraws))) (fun t => (t.st, t.rxb, t.uart.rxne)) =
      some (0x8#4, 0x55#8, false) := by decide
/-- V-TX-2. -/
theorem test_waitTx_spins :
    looks (exec .waitTx (withFlags true false false false false (stateAt 0x8#4 okDraws))) (fun t => t.st) = some 0x8#4 := by
  decide
/-- V-TX-4. -/
theorem test_waitTx_ready :
    looks (exec .waitTx (withFlags true true true false false (stateAt 0x8#4 okDraws))) (fun t => (t.st, t.uart.pe)) =
      some (0x9#4, true) := by decide
/-- V-ECHO-4: bit 7 kept. -/
theorem test_echo_80 :
    looks (exec .echo { stateAt 0x9#4 okDraws with rxb := 0x80#8 }) (fun t => (t.st, t.out, t.uart.txe)) =
      some (0x3#4, [0x80], false) := by decide
/-- V-FLT-7, V-ENV-10. -/
theorem test_echo_fail :
    looks (exec .echo { stateAt 0x9#4 (failDraws 1) with rxb := 0x41#8 }) (fun t => (t.st, t.fcause, t.fstate, t.out, t.uart.txe)) =
      some (0xF#4, 3#3, 0x9#4, [], true) := by decide
/-- V-FLT-8, V-FLT-9, and the example of R171: through step, so that `fstate` is the code. -/
theorem test_reserved_codes :
    [0xA#4, 0xB#4, 0xC#4, 0xD#4, 0xE#4].map (fun c => looks (step (stateAt c okDraws)) (fun t => (t.st, t.fcause, t.fstate))) =
      [some (0xF#4, 4#3, 0xA#4), some (0xF#4, 4#3, 0xB#4), some (0xF#4, 4#3, 0xC#4), some (0xF#4, 4#3, 0xD#4),
       some (0xF#4, 4#3, 0xE#4)] := by decide
/-- V-FLT-11: a move in FATAL changes nothing observed. -/
theorem test_fatal_move :
    looks (step { stateAt 0xF#4 okDraws with agenda := [.move (.arrive 0x41 true true false)], fcause := 1#3 })
      State.observation = some { out := [], fatal := some 1#3 } := by decide

/-! ## The environment (V-ENV-2, V-ENV-3, V-ENV-4, V-ENV-11) -/

theorem test_arrive_empty :
    (Uart.clean.afterMove (.arrive 0x5A true true false)).rdr = 0x5A#8 ∧
    (Uart.clean.afterMove (.arrive 0x5A true true false)).flags =
      { rxne := true, txe := true, pe := true, fe := true, ore := false } := by decide
theorem test_arrive_full :
    (({ Uart.clean with rxne := true, rdr := 0x31#8 }).afterMove (.arrive 0x32 false false true)).rdr = 0x32#8 ∧
    (({ Uart.clean with rxne := true, rdr := 0x31#8 }).afterMove (.arrive 0x32 false false false)).rdr = 0x31#8 ∧
    (({ Uart.clean with rxne := true, rdr := 0x31#8 }).afterMove (.arrive 0x32 false false false)).ore = true := by decide
theorem test_txDone : (({ Uart.clean with txe := false }).afterMove .txDone).txe = true := by decide

/-! ## The placed instruction runs -/

theorem test_withFetchWord_st4 : fetch (State.reset.withFetchWord 8 0x6) = .reportFault := by decide
theorem test_withFetchWord_snap3 :
    looks (step (State.reset.withFetchWord 3 0b010)) (fun t => (t.kind, t.st)) = some (2#2, 0x5#4) := by decide

/-! ## Hypotheses that some state meets, statement by statement (boundary values where the clauses meet) -/

theorem test_hyp_EncodedOperationDecodesToItself : Instr.fatal.wellFormed = true := rfl
theorem test_hyp_SnapshotRowsAreDisjointAndCoverAll :
    0b111#3 &&& 0b001#3 = 0b001#3 ∧ 0b110#3 &&& 0b011#3 = 0b010#3 ∧ 0b100#3 &&& 0b111#3 = 0b100#3 ∧
    0b000#3 &&& 0b111#3 = 0b000#3 := by decide
theorem test_hyp_StepRunsTheOperationOfTheState :
    (stateAt 0xF#4 okDraws).atTurn ∧ decodeTableWord 4 (stateAt 0xF#4 okDraws).st.toNat = some .fatal ∧
    Instr.fatal.wellFormed = true ∧ exec .fatal (stateAt 0xF#4 okDraws) = .next (stateAt 0xF#4 okDraws) ∧
    (stateAt 0xF#4 okDraws).agenda = [.go okDraws] :=
  ⟨atTurn_of_go rfl, by decide, rfl, rfl, rfl⟩
theorem test_hyp_StepRunsTheOperationOfTheState_noAgenda :
    State.reset.atTurn ∧ decodeTableWord 4 State.reset.st.toNat = some .pllSample ∧ State.reset.agenda = [] ∧
    ∃ t, exec .pllSample State.reset = .next t :=
  ⟨atTurn_of_nil rfl, by decide, rfl, _, rfl⟩
theorem test_hyp_StepRunsTheOperationOfTheState_fault :
    let s := withFlags false false false false false (stateAt 0x9#4 okDraws)
    s.atTurn ∧ decodeTableWord 4 s.st.toNat = some .echo ∧ exec .echo s = .fault .writeDrStuck :=
  ⟨atTurn_of_go rfl, by decide, rfl⟩
theorem test_hyp_PendingMoveIsMadeBetweenTurns :
    ({ State.reset with agenda := [.move .txDone] } : State).agenda = .move .txDone :: [] := rfl
theorem test_hyp_ArrivalFillsAnEmptyReceiver : Uart.clean.rxne = false := rfl
theorem test_hyp_ArrivalOverrunsAFullReceiver :
    let s := { withFlags true true false false false (stateAt 0x4#4 okDraws) with
      agenda := [.move (.arrive 0x32 false false true)] }
    s.uart.rxne = true ∧ ∃ t, step s = .next t ∧ t.uart.rdr ≠ s.uart.rdr :=
  ⟨rfl, _, rfl, by decide⟩
theorem test_hyp_TransmitterEmptiesByTxDoneAndFillsByWrite :
    ({ Uart.clean with txe := false } : Uart).txe = false ∧ (stateAt 0x9#4 okDraws).uart.txe = true ∧
    looks (step (stateAt 0x9#4 okDraws)) (fun t => t.uart.txe) = some false := by decide
theorem test_hyp_OnlyAConsumingReadClearsALatch :
    let s := withFlags true true true true true (stateAt 0x5#4 okDraws)
    s.uart.flags = { rxne := true, txe := true, pe := true, fe := true, ore := true } ∧
    looks (step s) (fun t => t.uart.flags) = some { rxne := false, txe := true, pe := false, fe := false, ore := false } := by
  decide
theorem test_hyp_ConsumingReadClearsTheShownFlags :
    (withFlags true true true false false (stateAt 0x5#4 okDraws)).uart.seen =
      some { rxne := true, txe := true, pe := true, fe := false, ore := false } := rfl
theorem test_hyp_ReadBeforeAnyStatusReadDrawsEveryFlag : Uart.clean.seen = none := rfl
theorem test_hyp_SixteenBitFrequencyIsExact : ({ m := 63#6, n := 511#9, p := 3#2 } : Pll).m ≠ 0#6 := by decide
theorem test_hyp_PllSampleComputesTheFrequency :
    (State.resetWith { m := 1#6, n := 0#9, p := 0#2 } []).pll.m ≠ 0#6 ∧
    (State.resetWith { m := 0#6, n := 511#9, p := 3#2 } []).pll.m = 0#6 := by decide
theorem test_hyp_FrequencyRange : (State.resetWith { m := 1#6, n := 511#9, p := 0#2 } []).pll.m ≠ 0#6 := by decide
theorem test_hyp_AcquireFollowsTheHandleProvider :
    (stateAt 0x1#4 okDraws).draws.handleOk = true ∧ (stateAt 0x1#4 (failDraws 0)).draws.handleOk = false := by decide
/-- The two conditions on a write, as SysclkReport, ReportFault and Echo have them, each met; also by the parameter alone. -/
theorem test_hyp_writes :
    ((stateAt 0x2#4 okDraws).draws.writeOk = true ∨ (stateAt 0x2#4 okDraws).writeMayFail = false) ∧
    ({ stateAt 0x2#4 (failDraws 0) with writeMayFail := false }.draws.writeOk = true ∨
      { stateAt 0x2#4 (failDraws 0) with writeMayFail := false }.writeMayFail = false) ∧
    ((stateAt 0x2#4 (failDraws 0)).draws.writeOk = false ∧ (stateAt 0x2#4 (failDraws 0)).writeMayFail = true) := by decide
theorem test_hyp_DecimalSpelling : (0 : Nat) = 0 ∧ (2044 : Nat) ≠ 0 ∧ (2044 : Nat) ≤ 2044 := by decide
theorem test_hyp_WaitRxSpinsOrTakesTheSnapshot :
    (withFlags false true true true true (stateAt 0x3#4 okDraws)).uart.rxne = false ∧
    (withFlags true false false false false (stateAt 0x3#4 okDraws)).uart.rxne = true := by decide
theorem test_hyp_ClassifyByFixedPriority :
    (0b111#3).getLsbD 0 = true ∧ ((0b110#3).getLsbD 0 = false ∧ (0b110#3).getLsbD 1 = true) ∧
    ((0b100#3).getLsbD 0 = false ∧ (0b100#3).getLsbD 1 = false ∧ (0b100#3).getLsbD 2 = true) ∧
    ((0b000#3).getLsbD 0 = false ∧ (0b000#3).getLsbD 1 = false ∧ (0b000#3).getLsbD 2 = false) := by decide
theorem test_hyp_ReportFaultEmitsTheMessageOfItsKind :
    let s := fun k : KindCode => { stateAt 0x6#4 okDraws with kind := k }
    let f := fun k : KindCode => { stateAt 0x6#4 (failDraws 28) with kind := k }
    ((s 1#2).kind = 1#2 ∧ (s 2#2).kind = 2#2 ∧ (s 3#2).kind = 3#2 ∧ (s 3#2).draws.writeOk = true) ∧
    ((f 3#2).kind = 3#2 ∧ (f 3#2).draws.writeOk = false ∧ (f 3#2).writeMayFail = true) ∧ (s 0#2).kind = 0#2 := by decide
theorem test_hyp_WaitTxSpinsOrGoesToEcho :
    (withFlags true false true true true (stateAt 0x8#4 okDraws)).uart.txe = false ∧
    (withFlags false true false false false (stateAt 0x8#4 okDraws)).uart.txe = true := by decide
theorem test_hyp_EchoWritesTheHeldByte :
    ((stateAt 0x9#4 okDraws).uart.txe = true ∧ (stateAt 0x9#4 okDraws).draws.writeOk = true) ∧
    ((stateAt 0x9#4 (failDraws 0)).uart.txe = true ∧ (stateAt 0x9#4 (failDraws 0)).draws.writeOk = false ∧
      (stateAt 0x9#4 (failDraws 0)).writeMayFail = true) := by decide
theorem test_hyp_OnlyAWriteToAFullTransmitterIsStuck :
    let s := withFlags false false false false false (stateAt 0x9#4 okDraws)
    s.uart.txe = false ∧ exec .echo s = .fault .writeDrStuck := ⟨rfl, rfl⟩
theorem test_hyp_ReservedCodesRaiseIllegalState :
    ∃ t : State, t = { State.reset with
      fcause := 4#3, fstate := State.reset.st, st := 0xF#4, held := { State.reset.held with fstate := true } } := ⟨_, rfl⟩
theorem test_hyp_ReservedCodesRaiseIllegalState_turn :
    ((stateAt 0xA#4 okDraws).atTurn ∧ (stateAt 0xE#4 okDraws).atTurn) ∧
    0xA#4 ≤ (stateAt 0xA#4 okDraws).st ∧ (stateAt 0xA#4 okDraws).st ≠ 0xF#4 ∧
    0xA#4 ≤ (stateAt 0xE#4 okDraws).st ∧ (stateAt 0xE#4 okDraws).st ≠ 0xF#4 :=
  ⟨⟨atTurn_of_go rfl, atTurn_of_go rfl⟩, by decide⟩
/-- Every code, at its turn, takes a step (the clauses of the next-state table, and every `step s = .next t` below). -/
theorem test_hyp_TurnsFollowTheNextStateTable :
    ∀ c : StCode, (stateAt c okDraws).atTurn ∧ (stateAt c okDraws).st = c ∧ (nextOf (step (stateAt c okDraws))).isSome = true :=
  fun c => ⟨atTurn_of_go rfl, rfl, by revert c; decide⟩
/-- A step that changes each latch: `freq`, `snap`, `kind`, `rxb`, and `fcause` with `fstate`. -/
theorem test_hyp_EachLatchHasItsOneWriter :
    looks (step (stateAt 0x0#4 okDraws)) (fun t => t.freq) = some 84#16 ∧
    looks (step (withFlags true true true false false (stateAt 0x3#4 okDraws))) (fun t => t.snap) = some 0b001#3 ∧
    looks (step { stateAt 0x4#4 okDraws with snap := 0b100#3 }) (fun t => t.kind) = some 3#2 ∧
    looks (step (withFlags true true false false false (stateAt 0x7#4 okDraws))) (fun t => t.rxb) = some 0x55#8 ∧
    looks (step (stateAt 0xE#4 okDraws)) (fun t => (t.fcause, t.fstate)) = some (4#3, 0xE#4) := by decide
/-- Steps in each of the three states that append to `out`. -/
theorem test_hyp_OutputGrowsByAppendingOnly :
    looks (step (stateAt 0x2#4 okDraws)) (fun t => t.out.length) = some 14 ∧
    looks (step { stateAt 0x6#4 okDraws with kind := 1#2 }) (fun t => t.out.length) = some 26 ∧
    looks (step (stateAt 0x9#4 okDraws)) (fun t => t.out.length) = some 1 := by decide
theorem test_hyp_OnlyPllSampleReadsThePll :
    Instr.sysclkReport ≠ .pllSample ∧ (∃ t, exec .sysclkReport State.reset = .next t) ∧
    (State.reset.atTurn ∧ ∃ t, step State.reset = .next t) :=
  ⟨by decide, ⟨_, rfl⟩, atTurn_of_nil rfl, ⟨_, rfl⟩⟩
/-- A turn into FATAL with each cause. -/
theorem test_hyp_FaultEntryRecordsStateAndCause :
    let zero := { stateAt 0x0#4 okDraws with pll := { m := 0#6, n := 168#9, p := 1#2 } }
    (zero.atTurn ∧ (stateAt 0x1#4 (failDraws 0)).atTurn ∧ (stateAt 0x9#4 (failDraws 0)).atTurn ∧
      (stateAt 0xA#4 okDraws).atTurn) ∧
    looks (step zero) (fun t => t.st) = some 0xF#4 ∧
    looks (step (stateAt 0x1#4 (failDraws 0))) (fun t => t.st) = some 0xF#4 ∧
    looks (step (stateAt 0x9#4 (failDraws 0))) (fun t => t.st) = some 0xF#4 ∧
    looks (step (stateAt 0xA#4 okDraws)) (fun t => t.st) = some 0xF#4 :=
  ⟨⟨atTurn_of_go rfl, atTurn_of_go rfl, atTurn_of_go rfl, atTurn_of_go rfl⟩, by decide⟩
theorem test_hyp_FatalIsAbsorbing : (stateAt 0xF#4 okDraws).st = 0xF#4 := rfl
theorem test_hyp_WritesNeverFailWithoutTheParameter :
    let s := { stateAt 0x1#4 (failDraws 0) with writeMayFail := false }
    s.writeMayFail = false ∧ s.st ≠ 0xF#4 ∧ looks (step s) (fun t => t.st) = some 0xF#4 := by decide

/-- A state in ECHO that meets the invariant, and takes a step. -/
theorem test_hyp_EveryStepKeepsTheInvariant :
    let s := { withFlags false true false false false (stateAt 0x9#4 okDraws) with
      freq := 84#16, rxb := 0x41#8, held := { freq := true, snap := true, kind := true, rxb := true, fstate := false } }
    StateInv s ∧ ∃ t, step s = .next t := by
  refine ⟨⟨.inl (by decide), .inl (by decide), ?_, ?_, ?_, ?_⟩, _, rfl⟩
  · exact ⟨by decide, by decide, by decide, by decide, by decide⟩
  · exact ⟨by decide, by decide, by decide⟩
  · exact ⟨by decide, by decide⟩
  · exact fun _ => ⟨rfl, _, rfl, rfl⟩
theorem test_hyp_InvariantStatesAreNeverStuck :
    StateInv (stateAt 0x0#4 okDraws) := by
  refine ⟨.inl (by decide), .inl (by decide), ?_, ?_, ?_, ?_⟩
  · exact ⟨by decide, by decide, by decide, by decide, by decide⟩
  · exact ⟨by decide, by decide, by decide⟩
  · exact ⟨by decide, by decide⟩
  · exact fun h => absurd h (by decide)
theorem test_hyp_StartupReportsTheFrequency :
    ({ m := 63#6, n := 0#9, p := 3#2 } : Pll).m ≠ 0#6 ∧ okDraws.handleOk = true ∧ okDraws.writeOk = true := by decide

/-- A turn with these moves and every answer ok. -/
def turn (moves : List Move) : Turn := { moves := moves, draws := okDraws }

/-- Every hypothesis of the fault iteration with each of the three messages, for turns with moves in the window before DRAIN and
in the report, and for both answers of the write. -/
theorem test_hyp_FaultIterationEmitsExactlyOneMessage :
    ∀ row ∈ [(true, true, msgParity), (true, false, msgParity), (false, true, msgFraming)],
    ∃ (s : State) (t0 t1 t2 t3 t3' : Turn) (u : Uart),
      s.st = 0x3#4 ∧ u = s.uart.afterMoves t0.moves ∧ u.rxne = true ∧ (u.pe || u.fe || u.ore) = true ∧
      row.2.2 = (if u.pe then msgParity else if u.fe then msgFraming else msgOverrun) ∧
      t1.moves ≠ [] ∧ t2.moves ≠ [] ∧ t3.draws.writeOk = true ∧ t3'.draws.writeOk = false ∧ s.writeMayFail = true := by
  intro row h
  refine ⟨stateAt 0x3#4 okDraws, turn [.arrive 0xD5 row.1 row.2.1 false], turn [.arrive 0x32 true true true],
    turn [.txDone], turn [], { moves := [], draws := failDraws 26 }, _, rfl, rfl, ?_⟩
  revert row; decide
/-- The overrun's case: two arrivals without line faults before the WAIT_RX. -/
theorem test_hyp_FaultIterationEmitsExactlyOneMessage_overrun :
    ∃ (s : State) (t0 t1 t2 t3 : Turn) (u : Uart),
      s.st = 0x3#4 ∧ u = s.uart.afterMoves t0.moves ∧ u.rxne = true ∧ (u.pe || u.fe || u.ore) = true ∧
      msgOverrun = (if u.pe then msgParity else if u.fe then msgFraming else msgOverrun) ∧
      t1.moves ≠ [] ∧ t2.moves ≠ [] ∧ t3.draws.writeOk = true :=
  ⟨stateAt 0x3#4 okDraws, turn [.arrive 0x31 false false false, .arrive 0x32 false false true], turn [.txDone],
    turn [.arrive 0x33 true false false], turn [], _, rfl, rfl, by decide⟩
/-- Every hypothesis of the valid iteration, with one WAIT_TX turn that spins: `txe` is 0 until `tx_done` comes. -/
theorem test_hyp_ValidIterationEchoesTheByte :
    let s := withFlags false false false false false (stateAt 0x3#4 okDraws)
    let t0 := turn [.arrive 0x41 false false false]
    let u := s.uart.afterMoves t0.moves
    s.st = 0x3#4 ∧ u.rxne = true ∧ (u.pe || u.fe || u.ore) = false ∧
    (s.uart.afterMoves (movesOf [t0, turn [], turn []])).rdr = 0x41#8 ∧
    (∀ k, k < [turn []].length →
      (s.uart.afterMoves (movesOf ([t0, turn [], turn []] ++ [turn []].take (k + 1)))).txe = false) ∧
    (s.uart.afterMoves (movesOf ([t0, turn [], turn []] ++ [turn []] ++ [turn [.txDone]]))).txe = true ∧
    (∀ m ∈ movesOf [turn [], turn []], m.isArrive = false) ∧ okDraws.writeOk = true ∧
    ((failDraws 0).writeOk = false ∧ s.writeMayFail = true) := by
  decide
/-- Every hypothesis of the statement that a drained fault does not leak: a parity fault, then 0x55 after a WAIT_RX that spins,
an arrival in its window that does not replace it, and a WAIT_TX that spins until `tx_done`. -/
theorem test_hyp_DrainedFaultDoesNotLeak :
    let s := stateAt 0x3#4 okDraws
    let u := s.uart.afterMoves (turn [.arrive 0xD5 true false false]).moves
    let t3 : Turn := { moves := [], draws := { okDraws with txe := false } }
    let t4 := turn [.arrive 0x55 false false true]
    let t5 := turn [.arrive 0x56 true false false]
    s.st = 0x3#4 ∧ u.rxne = true ∧ (u.pe || u.fe || u.ore) = true ∧
    (∀ m ∈ movesOf [turn [], turn [.txDone]], m.isArrive = false) ∧ t3.draws.writeOk = true ∧
    (movesOf ([t3] ++ [turn []] ++ [t4])).filter Move.isArrive = [.arrive 0x55 false false true] ∧
    ([turn []] ≠ [] ∧ ∀ m ∈ movesOf ([t3] ++ [turn []]), m.isArrive = false) ∧
    (∀ c p f, Move.arrive c p f true ∉ movesOf [t5, turn []]) ∧
    (t3.draws.txe = false ∧ Move.txDone ∉ movesOf ([turn []] ++ [t4, t5, turn []] ++ [turn []])) ∧
    Move.txDone ∈ movesOf ([turn []] ++ [t4, t5, turn []] ++ [turn []] ++ [turn [.txDone]]) ∧ okDraws.writeOk = true := by
  decide
/-- The same with no spin of either kind: the byte comes before the first WAIT_RX and `txe` is 1 after the report. -/
theorem test_hyp_DrainedFaultDoesNotLeak_noSpin :
    (movesOf ([turn [.arrive 0x55 false false true]] ++ [] ++ [turn []])).filter Move.isArrive =
      [.arrive 0x55 false false true] ∧
    (∀ c p f, Move.arrive c p f true ∉ movesOf [turn [], turn []]) ∧ (turn []).draws.txe = true := by decide
theorem test_hyp_WaitRxLeavesOnlyAfterAnArrival :
    let s := stateAt 0x3#4 okDraws
    s.st = 0x3#4 ∧ s.uart.rxne = false ∧ (∀ m ∈ movesOf [turn [.txDone], turn []], m.isArrive = false) ∧
    ∃ m ∈ (turn [.arrive 0x41 false false false]).moves, m.isArrive = true := by decide
theorem test_hyp_WaitTxLeavesOnlyAfterTxDone :
    let s := withFlags false false false false false (stateAt 0x8#4 okDraws)
    s.st = 0x8#4 ∧ s.uart.txe = false ∧ Move.txDone ∉ movesOf [turn [.arrive 0x41 false false false], turn []] ∧
    Move.txDone ∈ (turn [.txDone]).moves := by decide
/-- A run in WAIT_TX that meets FAIR_TX: `tx_done` comes before every turn. -/
theorem test_hyp_FairTransmitterEndsWaitTx :
    (stateAt 0x8#4 okDraws).st = 0x8#4 ∧ fairTx (stateAt 0x8#4 okDraws) (fun _ => turn [.txDone]) :=
  ⟨rfl, fun n _ _ _ => ⟨n, Nat.le_refl n, List.mem_cons_self ..⟩⟩

end Sys2Proof.Tests
end

section
/-! SUPPORT. The statements of 00_scope.md: who writes each latch, what WRITE_MAY_FAIL = false rules out, and the texts of the
output strings. The first two are by cases on the rows of R178 (`TurnRow`). -/

namespace Sys2Proof.Machine

section LatchWriters

variable {s t : State}

/-- R23: PLL_SAMPLE is the one writer of `freq`. -/
theorem TurnRow.st_of_freq_ne (h : TurnRow s t) (hne : t.freq ≠ s.freq) : s.st = 0x0#4 := by
  cases h with
  | pllFreq hst _ => exact hst
  | _ => exact absurd rfl hne

/-- R24: WAIT_RX is the one writer of `snap`. -/
theorem TurnRow.st_of_snap_ne (h : TurnRow s t) (hne : t.snap ≠ s.snap) : s.st = 0x3#4 := by
  cases h with
  | waitRxSnap hst _ => exact hst
  | _ => exact absurd rfl hne

/-- R25: CLASSIFY is the one writer of `kind`. -/
theorem TurnRow.st_of_kind_ne (h : TurnRow s t) (hne : t.kind ≠ s.kind) : s.st = 0x4#4 := by
  cases h with
  | classify hst => exact hst
  | _ => exact absurd rfl hne

/-- R26: READ is the one writer of `rxb`. -/
theorem TurnRow.st_of_rxb_ne (h : TurnRow s t) (hne : t.rxb ≠ s.rxb) : s.st = 0x7#4 := by
  cases h with
  | read hst => exact hst
  | _ => exact absurd rfl hne

/-- R27, R29: the rows that write the fault record are those that enter FATAL; FATAL itself is none of them. -/
theorem TurnRow.enters_fatal_of_record_ne (h : TurnRow s t) (hne : t.fcause ≠ s.fcause ∨ t.fstate ≠ s.fstate) :
    s.st ≠ 0xF#4 ∧ t.st = 0xF#4 := by
  cases h with
  | pllZero hst _ | acquireFail hst _ | sysclkFail hst _ | reportFail _ hst _ _ | reportIllegal hst _
  | echoFail hst _ _ => exact ⟨by rw [hst]; decide, rfl⟩
  | reserved _ hhi => exact ⟨hhi, rfl⟩
  | _ => exact hne.elim (absurd rfl) (absurd rfl)

/-- R31, R262, R8: no row writes the PLL inputs or WRITE_MAY_FAIL. -/
theorem TurnRow.keeps_inputs (h : TurnRow s t) : t.pll = s.pll ∧ t.writeMayFail = s.writeMayFail := by
  cases h <;> exact ⟨rfl, rfl⟩

end LatchWriters

/-- Settles O38: a move of the environment writes no latch, and a turn is a row of R178, each of which writes its own. -/
theorem eachLatchHasItsOneWriter : Obligations.EachLatchHasItsOneWriter := by
  intro s t h
  rcases step_rows h with ⟨m, rest, -, rfl⟩ | ⟨hturn, s', hrow, rfl⟩
  · simp
  · exact ⟨fun hne => ⟨hturn, hrow.st_of_freq_ne hne⟩, fun hne => ⟨hturn, hrow.st_of_snap_ne hne⟩,
      fun hne => ⟨hturn, hrow.st_of_kind_ne hne⟩, fun hne => ⟨hturn, hrow.st_of_rxb_ne hne⟩,
      fun hne => ⟨hturn, hrow.enters_fatal_of_record_ne hne⟩, hrow.keeps_inputs⟩

/-! ### Write failures -/

/-- No class leads to FATAL (R162). -/
theorem afterClass_ne_fatal (k : KindCode) : afterClass k ≠ 0xF#4 := by
  revert k; decide

/-- R223: a turn that enters FATAL with WRITE_FAIL had a failing write. -/
theorem TurnRow.write_failed_of_cause {s t : State} (h : TurnRow s t) (hs : s.st ≠ 0xF#4) (ht : t.st = 0xF#4)
    (hc : t.fcause = 3#3) : s.writeOk = false := by
  cases h with
  | sysclkFail _ hw | reportFail _ _ _ hw | echoFail _ _ hw => exact hw
  | pllZero | acquireFail | reportIllegal | reserved => simp at hc
  | classify => exact absurd ht (afterClass_ne_fatal _)
  | fatal hst => exact absurd hst hs
  | _ => simp at ht

/-- Settles O43: a turn enters FATAL with cause 3 only on a failing write, and with the parameter false every write answers ok. -/
theorem writesNeverFailWithoutTheParameter : Obligations.WritesNeverFailWithoutTheParameter := by
  intro s t hparam hs h ht hc
  rcases step_rows h with ⟨m, rest, -, rfl⟩ | ⟨-, s', hrow, rfl⟩
  · exact hs ht
  · have hfail : s.writeOk = false := hrow.write_failed_of_cause hs ht hc
    have hok : s.writeOk = true := (writeOk_iff s).2 (.inr hparam)
    simp [hok] at hfail

/-! ### The output strings -/

/-- The startup line's own 13 bytes stand around the digits (R108). -/
theorem sysclkLine_length (f : BitVec 16) : (sysclkLine f).length = 13 + (dec f.toNat).length := by
  simp only [sysclkLine, sysclkHead, sysclkTail, List.length_append, List.length_cons, List.length_nil]
  omega

/-- Settles O22: the fixed strings byte by byte; the startup line is its two fixed parts around the digits. -/
theorem outputStringsAreTheirTexts : Obligations.OutputStringsAreTheirTexts :=
  ⟨by decide, rfl, by decide, rfl, by decide, rfl, fun f => ⟨rfl, sysclkLine_length f⟩⟩

end Sys2Proof.Machine
end

section
/-! SUPPORT. The statements of 10_state.md: the invariant at reset and over every step, what a step appends to `out`, and a
step as the operation of the state. A claim about a turn is by cases on the rows of R178 (`TurnRow`). -/

namespace Sys2Proof.Machine

/-! ### The frequency -/

/-- The numerator of R120 does not wrap: 8 * 511 fits 16 bits. -/
theorem pllNumerator_toNat (n : BitVec 9) : (pllNumerator n).toNat = 8 * n.toNat := by
  have hn : n.toNat < 512 := n.isLt
  simp only [pllNumerator, Config.extClkMHz, BitVec.toNat_mul, BitVec.toNat_ofNat, BitVec.toNat_setWidth]
  omega

/-- The divisor of R106 as a natural. -/
theorem pllDivisor_toNat (p : BitVec 2) : (pllDivisor p).toNat = (p.toNat + 1) * 2 := by
  revert p; decide

/-- The denominator of R120 does not wrap: 63 * 8 fits 16 bits. -/
theorem pllDenominator_toNat (m : BitVec 6) (p : BitVec 2) :
    (pllDenominator m p).toNat = m.toNat * ((p.toNat + 1) * 2) := by
  have hm : m.toNat < 64 := m.isLt
  have hp : p.toNat < 4 := p.isLt
  have hbound : m.toNat * ((p.toNat + 1) * 2) ≤ 63 * 8 := Nat.mul_le_mul (by omega) (by omega)
  rw [pllDenominator, BitVec.toNat_mul, pllDivisor_toNat, BitVec.toNat_setWidth,
    Nat.mod_eq_of_lt (by omega : m.toNat < 2 ^ 16)]
  exact Nat.mod_eq_of_lt (by omega)

/-- R123, R128: with `m` ≠ 0 the denominator is at least 2, so the frequency is at most 4088 / 2. -/
theorem pllFreq16_le (c : Pll) (hm : c.m ≠ 0#6) : (pllFreq16 c).toNat ≤ 2044 := by
  have hn : c.n.toNat < 512 := c.n.isLt
  have hpos : 1 ≤ c.m.toNat := Nat.one_le_iff_ne_zero.2 fun h0 => hm (BitVec.eq_of_toNat_eq h0)
  have hden : 1 * 2 ≤ c.m.toNat * ((c.p.toNat + 1) * 2) := Nat.mul_le_mul hpos (by omega)
  rw [pllFreq16, BitVec.toNat_udiv, pllNumerator_toNat, pllDenominator_toNat]
  calc 8 * c.n.toNat / (c.m.toNat * ((c.p.toNat + 1) * 2))
      ≤ 8 * c.n.toNat / 2 := Nat.div_le_div_left hden (by omega)
    _ ≤ 2044 := by omega

/-! ### Where CLASSIFY goes -/

/-- CLASSIFY goes to DRAIN exactly with a fault class, to READ exactly with VALID, and nowhere else (R162). -/
theorem afterClass_cases (k : KindCode) : (k ≠ 0#2 ∧ afterClass k = 0x5#4) ∨ (k = 0#2 ∧ afterClass k = 0x7#4) := by
  revert k; decide

theorem afterClass_ne (k : KindCode) {c : StCode} (h5 : c ≠ 0x5#4) (h7 : c ≠ 0x7#4) : afterClass k ≠ c := by
  rcases afterClass_cases k with ⟨-, hto⟩ | ⟨-, hto⟩ <;> rw [hto]
  · exact h5.symm
  · exact h7.symm

/-! ### The invariant over a turn, part by part -/

section InvariantOverATurn

variable {s t : State}

/-- In a state that meets the invariant REPORT_FAULT runs with a fault class, so its ILLEGAL_STATE row does not apply (R224). -/
theorem classOk.kind_ne_of_report (hc : classOk s) (hst : s.st = 0x6#4) : s.kind ≠ 0#2 := by
  obtain ⟨-, hfaultClass, -⟩ := hc
  exact hfaultClass (.inr hst)

/-- A reserved code is not legal, so the reserved row does not apply (R224). -/
theorem legalCode.not_reserved {c : StCode} (hl : legalCode c) (hlo : 0xA#4 ≤ c) (hhi : c ≠ 0xF#4) : False := by
  have hlo' : 10 ≤ c.toNat := hlo
  exact hl.elim (fun h9 => by omega) hhi

/-- Outside FATAL no fault is recorded. -/
theorem faultRecordOk.clear (hf : faultRecordOk s) (hst : s.st ≠ 0xF#4) : s.fcause = 0#3 ∧ s.held.fstate = false := by
  rcases hf with ⟨-, hclear⟩ | ⟨hfatal, -⟩
  · exact hclear
  · exact absurd hfatal hst

/-- R178: a turn leads only to legal codes. -/
theorem TurnRow.keeps_legalCode (h : TurnRow s t) : legalCode t.st := by
  cases h with
  | pllZero | acquireFail | sysclkFail | reportFail | reportIllegal | echoFail | reserved => exact .inr rfl
  | fatal hst => exact .inr hst
  | classify =>
    rcases afterClass_cases (classOf s.snap) with ⟨-, hto⟩ | ⟨-, hto⟩ <;>
      simp [legalCode, State.enterClass, hto]
  | _ => exact .inl (by simp)

/-- R221 to R223: a turn outside FATAL leaves the record clear or makes the record of its own state; the rows that raise
ILLEGAL_STATE do not apply. -/
theorem TurnRow.keeps_faultRecordOk (h : TurnRow s t) (hl : legalCode s.st) (hc : classOk s) (hf : faultRecordOk s) :
    faultRecordOk t := by
  cases h with
  | pllZero hst => exact .inr ⟨rfl, rfl, .inl ⟨rfl, hst⟩⟩
  | acquireFail hst => exact .inr ⟨rfl, rfl, .inr (.inl ⟨rfl, hst⟩)⟩
  | sysclkFail hst => exact .inr ⟨rfl, rfl, .inr (.inr ⟨rfl, .inl hst⟩)⟩
  | reportFail _ hst => exact .inr ⟨rfl, rfl, .inr (.inr ⟨rfl, .inr (.inl hst)⟩)⟩
  | echoFail hst => exact .inr ⟨rfl, rfl, .inr (.inr ⟨rfl, .inr (.inr hst)⟩)⟩
  | reportIllegal hst hk => exact absurd hk (hc.kind_ne_of_report hst)
  | reserved hlo hhi => exact (hl.not_reserved hlo hhi).elim
  | fatal => exact hf
  | classify hst => exact .inl ⟨afterClass_ne_fatal _, hf.clear (by simp [hst])⟩
  | pllFreq hst | acquireOk hst | sysclkOk hst | waitRxSpin hst | waitRxSnap hst | drain hst | reportOk _ hst | read hst
  | waitTxSpin hst | waitTxReady hst | echoOk hst => exact .inl ⟨by simp, hf.clear (by simp [hst])⟩

/-- R23, R128: `freq`, once held, stays at most 2044. -/
theorem TurnRow.keeps_freq_le (h : TurnRow s t) (hf : s.held.freq = true → s.freq.toNat ≤ 2044) :
    t.held.freq = true → t.freq.toNat ≤ 2044 := by
  cases h with
  | pllFreq _ hm => exact fun _ => pllFreq16_le s.pll hm
  | _ => exact hf

/-- R38, R120: the way out of PLL_SAMPLE that does not end in FATAL writes `freq`. -/
theorem TurnRow.keeps_freq_held (h : TurnRow s t) (hf : s.st ≠ 0x0#4 → s.st ≠ 0xF#4 → s.held.freq = true) :
    t.st ≠ 0x0#4 → t.st ≠ 0xF#4 → t.held.freq = true := by
  intro _ hnf
  cases h with
  | pllFreq => rfl
  | fatal hst => exact absurd hst hnf
  | pllZero | acquireFail | sysclkFail | reportFail | reportIllegal | echoFail | reserved => exact absurd rfl hnf
  | acquireOk hst | sysclkOk hst | waitRxSpin hst | waitRxSnap hst | classify hst | drain hst | reportOk _ hst | read hst
  | waitTxSpin hst | waitTxReady hst | echoOk hst => exact hf (by simp [hst]) (by simp [hst])

/-- R178: CLASSIFY is entered by WAIT_RX's snapshot only. -/
theorem TurnRow.enters_classify (h : TurnRow s t) (ht : t.st = 0x4#4) :
    s.uart.rxne = true ∧ t = ((s.setUart { s.uart with seen := some s.uart.flags }).setSnap
      (packSnap s.uart.ore s.uart.fe s.uart.pe)).goto 0x4#4 := by
  cases h with
  | waitRxSnap _ hr => exact ⟨hr, rfl⟩
  | classify => exact absurd ht (afterClass_ne _ (by decide) (by decide))
  | fatal hst => simp [hst] at ht
  | _ => simp at ht

/-- R178: DRAIN and READ are entered by CLASSIFY only. -/
theorem TurnRow.enters_drain_or_read (h : TurnRow s t) (ht : t.st = 0x5#4 ∨ t.st = 0x7#4) :
    s.st = 0x4#4 ∧ t = s.enterClass (classOf s.snap) := by
  cases h with
  | classify hst => exact ⟨hst, rfl⟩
  | fatal hst => simp [hst] at ht
  | _ => simp at ht

/-- R178: REPORT_FAULT is entered by DRAIN only. -/
theorem TurnRow.enters_report (h : TurnRow s t) (ht : t.st = 0x6#4) :
    s.st = 0x5#4 ∧ t = (s.setUart (s.uart.consumed s.draws)).goto 0x6#4 := by
  cases h with
  | drain hst => exact ⟨hst, rfl⟩
  | classify => exact absurd ht (afterClass_ne _ (by decide) (by decide))
  | fatal hst => simp [hst] at ht
  | _ => simp at ht

/-- R178: WAIT_TX is entered by READ, or by its own spin. -/
theorem TurnRow.enters_waitTx (h : TurnRow s t) (ht : t.st = 0x8#4) :
    (s.st = 0x7#4 ∧ t = ((s.setUart (s.uart.consumed s.draws)).setRxb s.uart.rdr).goto 0x8#4) ∨
    (s.st = 0x8#4 ∧ t = (s.setUart { s.uart with seen := some s.uart.flags }).goto 0x8#4) := by
  cases h with
  | read hst => exact .inl ⟨hst, rfl⟩
  | waitTxSpin hst => exact .inr ⟨hst, rfl⟩
  | classify => exact absurd ht (afterClass_ne _ (by decide) (by decide))
  | fatal hst => simp [hst] at ht
  | _ => simp at ht

/-- R178, R267: ECHO is entered by a WAIT_TX that saw `txe` = 1 only. -/
theorem TurnRow.enters_echo (h : TurnRow s t) (ht : t.st = 0x9#4) :
    s.st = 0x8#4 ∧ s.uart.txe = true ∧ t = (s.setUart { s.uart with seen := some s.uart.flags }).goto 0x9#4 := by
  cases h with
  | waitTxReady hst htxe => exact ⟨hst, htxe, rfl⟩
  | classify => exact absurd ht (afterClass_ne _ (by decide) (by decide))
  | fatal hst => simp [hst] at ht
  | _ => simp at ht

/-- R38: each operation that reads a latch is entered from the one that writes it, or from one where the latch is held. -/
theorem TurnRow.keeps_latchesOk (h : TurnRow s t) (hl : latchesOk s) : latchesOk t := by
  obtain ⟨hle, hfreq, -, hkind, hrxb⟩ := hl
  refine ⟨h.keeps_freq_le hle, h.keeps_freq_held hfreq, fun h4 => ?_, ?_, ?_⟩
  · obtain ⟨-, rfl⟩ := h.enters_classify h4
    rfl
  · rintro (h5 | h6 | h7)
    · obtain ⟨-, rfl⟩ := h.enters_drain_or_read (.inl h5)
      rfl
    · obtain ⟨hst, rfl⟩ := h.enters_report h6
      exact hkind (.inl hst)
    · obtain ⟨-, rfl⟩ := h.enters_drain_or_read (.inr h7)
      rfl
  · rintro (h8 | h9)
    · rcases h.enters_waitTx h8 with ⟨-, rfl⟩ | ⟨hst, rfl⟩
      · rfl
      · exact hrxb (.inl hst)
    · obtain ⟨hst, -, rfl⟩ := h.enters_echo h9
      exact hrxb (.inl hst)

/-- R162: CLASSIFY makes class and path agree. -/
theorem classOk_enterClass (s : State) : classOk (s.enterClass (classOf s.snap)) := by
  have hto := afterClass_cases (classOf s.snap)
  refine ⟨fun _ => rfl, fun h56 => ?_, fun h7 => ?_⟩
  · rcases hto with ⟨hk, -⟩ | ⟨-, h7⟩
    · exact hk
    · simp [State.enterClass, h7] at h56
  · rcases hto with ⟨-, h5⟩ | ⟨hk, -⟩
    · simp [State.enterClass, h5] at h7
    · exact hk

/-- R162, R178: DRAIN and READ are entered from CLASSIFY, which makes class and path agree; REPORT_FAULT from DRAIN, which
writes neither `kind` nor `snap`. -/
theorem TurnRow.keeps_classOk (h : TurnRow s t) (hc : classOk s) : classOk t := by
  obtain ⟨hagree, hfaultClass, -⟩ := hc
  by_cases h57 : t.st = 0x5#4 ∨ t.st = 0x7#4
  · obtain ⟨-, rfl⟩ := h.enters_drain_or_read h57
    exact classOk_enterClass s
  · by_cases h6 : t.st = 0x6#4
    · obtain ⟨hst, rfl⟩ := h.enters_report h6
      exact ⟨fun _ => hagree (.inl hst), fun _ => hfaultClass (.inl hst), fun h7 => absurd (.inr h7) h57⟩
    · have h5 : t.st ≠ 0x5#4 := fun h5 => h57 (.inl h5)
      have h7 : t.st ≠ 0x7#4 := fun h7 => h57 (.inr h7)
      exact ⟨by simp [h5, h6, h7], by simp [h5, h6], by simp [h7]⟩

/-- R77: no row makes a byte pending, and none takes away that `rdr` holds a value. -/
theorem TurnRow.keeps_pending_held (h : TurnRow s t) (hp : s.uart.rxne = true → s.uart.rdrHeld = true) :
    t.uart.rxne = true → t.uart.rdrHeld = true := by
  cases h with
  | drain | read => intro hr; simp at hr
  | _ => exact hp

/-- R160, R161, R178: the window opens with WAIT_RX's snapshot, and CLASSIFY, the one way on to DRAIN and READ, leaves the
peripheral and the snapshot alone. -/
theorem TurnRow.keeps_windowOk (h : TurnRow s t) (hw : windowOk s) : windowOk t := by
  obtain ⟨hpend, hopen⟩ := hw
  refine ⟨h.keeps_pending_held hpend, ?_⟩
  rintro (h4 | h57)
  · obtain ⟨hr, rfl⟩ := h.enters_classify h4
    exact ⟨hr, s.uart.flags, rfl, hr, rfl, id, id, id⟩
  · obtain ⟨hst, rfl⟩ := h.enters_drain_or_read h57
    exact hopen (.inl hst)

/-- R267: the WAIT_TX that leads to ECHO recorded `txe` = 1 and did not lower it. -/
theorem TurnRow.establishes_transmitOk (h : TurnRow s t) : transmitOk t := by
  intro h9
  obtain ⟨-, htxe, rfl⟩ := h.enters_echo h9
  exact ⟨htxe, s.uart.flags, rfl, htxe⟩

/-- A turn of the sequencer keeps the invariant. -/
theorem TurnRow.keeps_inv (h : TurnRow s t) (hi : StateInv s) : StateInv t := by
  obtain ⟨hlegal, hfault, hlatch, hclass, hwindow, -⟩ := hi
  exact ⟨h.keeps_legalCode, h.keeps_faultRecordOk hlegal hclass hfault, h.keeps_latchesOk hlatch, h.keeps_classOk hclass,
    h.keeps_windowOk hwindow, h.establishes_transmitOk⟩

end InvariantOverATurn

/-! ### The invariant over a move of the environment, and at the end of a turn -/

/-- R74 to R78: a move writes no latch of the block and clears no flag of the window, and it lowers no `txe`. -/
theorem makeMove_keeps_inv {s : State} (m : Move) (rest : List Event) (hi : StateInv s) : StateInv (s.makeMove m rest) := by
  obtain ⟨hlegal, hfault, hlatch, hclass, ⟨hpend, hopen⟩, htx⟩ := hi
  obtain ⟨hrxne, hpe, hfe, hore, htxe, hseen, hheld, harrived, -⟩ := afterMove_duties s.uart m
  refine ⟨hlegal, hfault, hlatch, hclass, ⟨fun hr => ?_, fun hst => ?_⟩, fun hst => ?_⟩
  · exact (harrived hr).elim (fun h0 => hheld (hpend h0)) id
  · obtain ⟨hr, v, hv, hvr, hsnap, hvpe, hvfe, hvore⟩ := hopen hst
    exact ⟨hrxne hr, v, hseen.trans hv, hvr, hsnap, hpe ∘ hvpe, hfe ∘ hvfe, hore ∘ hvore⟩
  · obtain ⟨ht, v, hv, hvt⟩ := htx hst
    exact ⟨htxe ht, v, hseen.trans hv, hvt⟩

/-- The invariant does not look at the agenda or at the count of turns. -/
theorem endTurn_keeps_inv {s : State} (hi : StateInv s) : StateInv s.endTurn := hi

/-- Settles O45: a step is a move of the environment, or a row of R178 and the turn's end, and each keeps the invariant. -/
theorem everyStepKeepsTheInvariant : Obligations.EveryStepKeepsTheInvariant := by
  intro s t hi h
  rcases step_rows h with ⟨m, rest, -, rfl⟩ | ⟨-, s', hrow, rfl⟩
  · exact makeMove_keeps_inv m rest hi
  · exact endTurn_keeps_inv (hrow.keeps_inv hi)

/-- Settles O44: at reset only the clauses about PLL_SAMPLE's code and the clear fault record apply; no latch is held, no byte
is pending. -/
theorem invariantHoldsAtReset : Obligations.InvariantHoldsAtReset := by
  intro pll agenda
  have hst : (State.resetWith pll agenda).st = 0x0#4 := rfl
  have hfreq : (State.resetWith pll agenda).held.freq = false := rfl
  have hrxne : (State.resetWith pll agenda).uart.rxne = false := rfl
  have hlegal : legalCode (State.resetWith pll agenda).st := .inl (by simp [hst])
  have hfault : faultRecordOk (State.resetWith pll agenda) := .inl ⟨by simp [hst], rfl, rfl⟩
  have hlatch : latchesOk (State.resetWith pll agenda) := by simp [latchesOk, hst, hfreq]
  have hclass : classOk (State.resetWith pll agenda) := by simp [classOk, hst]
  have hwindow : windowOk (State.resetWith pll agenda) := by simp [windowOk, hst, hrxne]
  have htx : transmitOk (State.resetWith pll agenda) := by simp [transmitOk, hst]
  exact ⟨hlegal, hfault, hlatch, hclass, hwindow, htx⟩

/-! ### The output -/

/-- R28: a turn appends to `out`, and only SYSCLK_REPORT, REPORT_FAULT and ECHO append anything. -/
theorem TurnRow.appends {s t : State} (h : TurnRow s t) :
    ∃ bytes, t.out = s.out ++ bytes ∧ (bytes ≠ [] → s.st = 0x2#4 ∨ s.st = 0x6#4 ∨ s.st = 0x9#4) := by
  cases h with
  | sysclkOk hst | sysclkFail hst => exact ⟨_, rfl, fun _ => .inl hst⟩
  | reportOk _ hst | reportFail _ hst => exact ⟨_, rfl, fun _ => .inr (.inl hst)⟩
  | echoOk hst => exact ⟨_, rfl, fun _ => .inr (.inr hst)⟩
  | _ => exact ⟨[], (List.append_nil _).symm, fun hne => absurd rfl hne⟩

/-- Settles O39: a move of the environment appends nothing, and a turn what its row of R178 appends. -/
theorem outputGrowsByAppendingOnly : Obligations.OutputGrowsByAppendingOnly := by
  intro s t h
  rcases step_rows h with ⟨m, rest, -, rfl⟩ | ⟨hturn, s', hrow, rfl⟩
  · exact ⟨[], by simp, fun hne => absurd rfl hne⟩
  · obtain ⟨bytes, hout, hwriter⟩ := hrow.appends
    exact ⟨bytes, hout, fun hne => ⟨hturn, hwriter hne⟩⟩

/-! ### A step and its operation -/

/-- Four raw bits that hold a state code decode to its operation (R100, R110). -/
theorem decodeTableWord_stCode (v : StCode) : decodeTableWord 4 v.toNat = some (decodeSt4 v) := by
  have hv : v.toNat < 16 := v.isLt
  simp [decodeTableWord, readWord, decode, hv]

/-- ECHO goes on with what its WriteDR answers (R169). -/
theorem exec_echo_of_writeDr {s : State} {r : Bool × State} (h : writeDr s.rxb s = some r) :
    exec .echo s = .next (afterWrite r) := by
  simp [exec, execEcho, h]

/-- An operation answers a next state, except ECHO on a full transmitter, which is stuck (R82, log 9); none is refused. -/
theorem exec_cases (i : Instr) (s : State) :
    (∃ t, exec i s = .next t) ∨ (i = .echo ∧ s.uart.txe = false ∧ exec i s = .fault .writeDrStuck) := by
  cases i with
  | echo =>
    rcases writeDr_cases s.rxb s with ⟨ht, hd⟩ | ⟨-, -, hd⟩ | ⟨-, -, hd⟩
    · exact .inr ⟨rfl, ht, by simp [exec, execEcho, hd]⟩
    · exact .inl ⟨_, exec_echo_of_writeDr hd⟩
    · exact .inl ⟨_, exec_echo_of_writeDr hd⟩
  | _ => exact .inl ⟨_, rfl⟩

theorem exec_ne_refused (i : Instr) (s : State) (r : Refusal) : exec i s ≠ .refused r := by
  rcases exec_cases i s with ⟨t, ht⟩ | ⟨-, -, hf⟩
  · rw [ht]; exact nofun
  · rw [hf]; exact nofun

/-- Settles O9: the operation is the one fetched, it leaves the agenda and the count of turns to the end of the turn
(`TurnRow.keeps_agenda`), and the end of the turn drops the turn's draws and counts it. -/
theorem stepRunsTheOperationOfTheState : Obligations.StepRunsTheOperationOfTheState := by
  intro s i hturn hdec _
  have hi : i = fetch s := by simpa [decodeTableWord_stCode, fetch, decode, eq_comm] using hdec
  subst hi
  have hstep : step s = endTurnOf (exec (fetch s) s) := step_of_atTurn hturn
  have hkeeps (t : State) (ht : exec (fetch s) s = .next t) : t.agenda = s.agenda ∧ t.turns = s.turns :=
    (turn_cases ht).keeps_agenda
  refine ⟨hkeeps, fun t ht => ⟨fun d rest hgo => ?_, fun hnil => ?_⟩, fun r hr => ?_, exec_ne_refused _ s⟩
  · simp [hstep, ht, State.endTurn, (hkeeps t ht).1, hgo]
  · have hagenda : t.agenda = [] := (hkeeps t ht).1.trans hnil
    simp [hstep, ht, State.endTurn, hagenda]
  · rw [hstep, hr]; rfl

end Sys2Proof.Machine
end

section
/-! SUPPORT. The statements of 20_memory.md about one move of the environment, one port access and one step. A claim about a
step is a claim about a move (`afterMove_duties`) and one about the rows of R178 (`TurnRow`). -/

namespace Sys2Proof.Machine

/-! ### The branches of each operation

The rows of R178 name a branch; these say which branch an operation takes. -/

section Branches

variable {s : State}

theorem exec_pllSample_zero (h : s.pll.m = 0#6) : exec .pllSample s = .next (s.raiseFatal 1#3) := by
  simp [exec, execPllSample, samplePll, h]

theorem exec_pllSample_freq (h : s.pll.m ≠ 0#6) :
    exec .pllSample s = .next ((s.setFreq (pllFreq16 s.pll)).goto 0x1#4) := by
  simp [exec, execPllSample, samplePll, h]

theorem exec_acquire_ok (h : s.draws.handleOk = true) : exec .acquire s = .next (s.goto 0x2#4) := by
  simp [exec, execAcquire, acquireHandle, h]

theorem exec_acquire_fail (h : s.draws.handleOk = false) : exec .acquire s = .next (s.raiseFatal 2#3) := by
  simp [exec, execAcquire, acquireHandle, h]

theorem exec_waitRx_spin (h : s.uart.rxne = false) :
    exec .waitRx s = .next ((s.setUart { s.uart with seen := some s.uart.flags }).goto 0x3#4) := by
  simp [exec, execWaitRx, h]

theorem exec_waitRx_snap (h : s.uart.rxne = true) :
    exec .waitRx s = .next (((s.setUart { s.uart with seen := some s.uart.flags }).setSnap
      (packSnap s.uart.ore s.uart.fe s.uart.pe)).goto 0x4#4) := by
  simp [exec, execWaitRx, h]

theorem exec_reportFault_message {msg : List Byte} (h : messageOf s.kind = some msg) :
    exec .reportFault s = .next (afterWrite (emitString msg s)) := by
  simp [exec, execReportFault, h]

theorem exec_reportFault_illegal (h : messageOf s.kind = none) :
    exec .reportFault s = .next (s.raiseFatal 4#3) := by
  simp [exec, execReportFault, h]

theorem exec_waitTx_spin (h : s.uart.txe = false) :
    exec .waitTx s = .next ((s.setUart { s.uart with seen := some s.uart.flags }).goto 0x8#4) := by
  simp [exec, execWaitTx, h]

theorem exec_waitTx_ready (h : s.uart.txe = true) :
    exec .waitTx s = .next ((s.setUart { s.uart with seen := some s.uart.flags }).goto 0x9#4) := by
  simp [exec, execWaitTx, h]

/-- R82 (log 9): ECHO on a full transmitter is stuck. -/
theorem exec_echo_stuck (h : s.uart.txe = false) : exec .echo s = .fault .writeDrStuck := by
  simp [exec, execEcho, writeDr, h]

theorem exec_echo_ok (h : s.uart.txe = true) (hw : s.writeOk = true) :
    exec .echo s = .next (((s.send [s.rxb]).setUart { s.uart with txe := false }).goto 0x3#4) := by
  simp [exec, execEcho, writeDr, afterWrite, h, hw]

theorem exec_echo_fail (h : s.uart.txe = true) (hw : s.writeOk = false) :
    exec .echo s = .next (s.raiseFatal 3#3) := by
  simp [exec, execEcho, writeDr, afterWrite, h, hw]

theorem afterWrite_emitString_ok (hw : s.writeOk = true) (str : List Byte) :
    afterWrite (emitString str s) = ((s.send str).setUart { s.uart with txe := s.draws.txe }).goto 0x3#4 := by
  simp [afterWrite, delivered_of_ok hw, hw]

theorem afterWrite_emitString_fail (hw : s.writeOk = false) (str : List Byte) :
    afterWrite (emitString str s) =
      ((s.send (str.take s.draws.sent)).setUart { s.uart with txe := s.draws.txe }).raiseFatal 3#3 := by
  simp [afterWrite, delivered_of_fail hw, hw]

end Branches

/-! ### Moves and ports -/

/-- R74: an arrival into an empty receiver. -/
theorem afterMove_arrive_of_empty {u : Uart} (h : u.rxne = false) (b : Byte) (p f replace : Bool) :
    u.afterMove (.arrive b p f replace) =
      { u with rdr := b, rxne := true, pe := u.pe || p, fe := u.fe || f, rdrHeld := true } := by
  simp [Uart.afterMove, Uart.arrive, h]

/-- R75: an arrival into a full receiver. -/
theorem afterMove_arrive_of_full {u : Uart} (h : u.rxne = true) (b : Byte) (p f replace : Bool) :
    u.afterMove (.arrive b p f replace) =
      { u with ore := true, pe := u.pe || p, fe := u.fe || f, rdr := if replace then b else u.rdr,
               rdrHeld := u.rdrHeld || replace } := by
  simp [Uart.afterMove, Uart.arrive, h]

/-- Settles O10: a pending move is the first of the two kinds of step. -/
theorem pendingMoveIsMadeBetweenTurns : Obligations.PendingMoveIsMadeBetweenTurns :=
  fun _ _ _ h => step_of_move h

/-- Settles O11: the branch of an arrival for `rxne` = 0. -/
theorem arrivalFillsAnEmptyReceiver : Obligations.ArrivalFillsAnEmptyReceiver :=
  fun _ b p f replace h => afterMove_arrive_of_empty h b p f replace

/-- Settles O15: of the peripheral, the consuming read changes the four flags only, and each fault flag by what was seen. -/
theorem consumingReadClearsTheShownFlags : Obligations.ConsumingReadClearsTheShownFlags := by
  refine ⟨fun _ => rfl, fun u d v hseen => ?_⟩
  obtain ⟨hpe, hfe, hore⟩ := consumed_of_seen hseen d
  exact ⟨rfl, hpe, hfe, hore, rfl, rfl, rfl, rfl⟩

/-- Before the first ReadSR no flag was shown (log 10). -/
theorem shown_of_seen_none {u : Uart} (h : u.seen = none) (flag : Flags → Bool) : u.shown flag = false := by
  simp [Uart.shown, h]

/-- Settles O16: no flag was shown, so the draw alone keeps or clears each. -/
theorem readBeforeAnyStatusReadDrawsEveryFlag : Obligations.ReadBeforeAnyStatusReadDrawsEveryFlag := by
  intro u d hseen
  simp [Uart.consumed, flagAfterRead, shown_of_seen_none hseen]

/-- Settles O34: an operation answers a next state unless it is ECHO on a full transmitter (`exec_cases`). -/
theorem onlyAWriteToAFullTransmitterIsStuck : Obligations.OnlyAWriteToAFullTransmitterIsStuck := by
  intro i s
  constructor
  · rintro ⟨r, hr⟩
    rcases exec_cases i s with ⟨t, ht⟩ | ⟨hi, htxe, -⟩
    · rw [hr] at ht
      exact nomatch ht
    · exact ⟨hi, htxe⟩
  · rintro ⟨rfl, htxe⟩
    exact ⟨_, exec_echo_stuck htxe⟩

/-! ### What a turn does to the peripheral -/

section PeripheralOverATurn

variable {s t : State}

/-- R75, R77, R79, R81, R82: no access of the block writes `rdr`. -/
theorem TurnRow.keeps_rdr (h : TurnRow s t) : t.uart.rdr = s.uart.rdr := by
  cases h <;> rfl

/-- R76: the rows that can lower `txe` are those that write. -/
theorem TurnRow.keeps_txe_or_writes (h : TurnRow s t) :
    t.uart.txe = s.uart.txe ∨ s.st = 0x2#4 ∨ s.st = 0x6#4 ∨ s.st = 0x9#4 := by
  cases h with
  | sysclkOk hst | sysclkFail hst => exact .inr (.inl hst)
  | reportOk _ hst | reportFail _ hst => exact .inr (.inr (.inl hst))
  | echoOk hst => exact .inr (.inr (.inr hst))
  | _ => exact .inl rfl

/-- R77, R78: the rows that can clear `rxne` or a fault flag are those that make ReadDR. -/
theorem TurnRow.keeps_latches_or_reads (h : TurnRow s t) :
    (t.uart.rxne = s.uart.rxne ∧ t.uart.pe = s.uart.pe ∧ t.uart.fe = s.uart.fe ∧ t.uart.ore = s.uart.ore) ∨
    s.st = 0x5#4 ∨ s.st = 0x7#4 := by
  cases h with
  | drain hst => exact .inr (.inl hst)
  | read hst => exact .inr (.inr hst)
  | _ => exact .inl ⟨rfl, rfl, rfl, rfl⟩

/-- R178, R67: no row leads to PLL_SAMPLE. -/
theorem TurnRow.st_ne_pllSample (h : TurnRow s t) : t.st ≠ 0x0#4 := by
  cases h with
  | classify => exact afterClass_ne _ (by decide) (by decide)
  | fatal hst => simp [hst]
  | _ => simp

end PeripheralOverATurn

/-- Settles O12: no turn writes `rdr`, and a move that changes it under `rxne` = 1 is an arrival that replaces it. -/
theorem arrivalOverrunsAFullReceiver : Obligations.ArrivalOverrunsAFullReceiver := by
  refine ⟨fun u b p f replace hr => afterMove_arrive_of_full hr b p f replace, fun s t h hr hne => ?_⟩
  rcases step_rows h with ⟨m, rest, ha, rfl⟩ | ⟨-, s', hrow, rfl⟩
  · obtain ⟨-, -, -, -, -, -, -, -, hstable⟩ := afterMove_duties s.uart m
    rcases hstable hr with hsame | ⟨b, p, f, rfl⟩
    · exact absurd hsame hne
    · exact ⟨b, p, f, rest, ha⟩
  · exact absurd hrow.keeps_rdr hne

/-- Settles O13: no move lowers `txe`, and of the turns only those of the three states that write. -/
theorem transmitterEmptiesByTxDoneAndFillsByWrite : Obligations.TransmitterEmptiesByTxDoneAndFillsByWrite := by
  refine ⟨fun u _ => afterMove_txDone u, fun s t h h1 h0 => ?_⟩
  rcases step_rows h with ⟨m, rest, -, rfl⟩ | ⟨hturn, s', hrow, rfl⟩
  · obtain ⟨-, -, -, -, hkeeps, -⟩ := afterMove_duties s.uart m
    rw [State.makeMove_uart, hkeeps h1] at h0
    exact nomatch h0
  · refine ⟨hturn, hrow.keeps_txe_or_writes.resolve_left fun hsame => ?_⟩
    rw [State.endTurn_uart, hsame, h1] at h0
    exact nomatch h0

/-- Settles O14: no move clears a latch, and of the turns only those of the two states that make ReadDR. -/
theorem onlyAConsumingReadClearsALatch : Obligations.OnlyAConsumingReadClearsALatch := by
  intro s t h hcleared
  rcases step_rows h with ⟨m, rest, -, rfl⟩ | ⟨hturn, s', hrow, rfl⟩
  · obtain ⟨hrxne, hpe, hfe, hore, -⟩ := afterMove_duties s.uart m
    rcases hcleared with ⟨h1, h0⟩ | ⟨h1, h0⟩ | ⟨h1, h0⟩ | ⟨h1, h0⟩
    · simp [hrxne h1] at h0
    · simp [hpe h1] at h0
    · simp [hfe h1] at h0
    · simp [hore h1] at h0
  · refine ⟨hturn, hrow.keeps_latches_or_reads.resolve_left ?_⟩
    rintro ⟨hrxne, hpe, hfe, hore⟩
    simp [hrxne, hpe, hfe, hore] at hcleared

/-! ### The PLL fields -/

/-- The state with other PLL fields (R31). -/
def State.withPll (c : Pll) (s : State) : State := { s with pll := c }

theorem withPll_self (s : State) : s.withPll s.pll = s := rfl

/-- EmitString and what follows it do not look at the PLL fields. -/
theorem afterWrite_emitString_withPll (c : Pll) (str : List Byte) (s : State) :
    afterWrite (emitString str (s.withPll c)) = (afterWrite (emitString str s)).withPll c := by
  cases hw : s.writeOk with
  | true => rw [afterWrite_emitString_ok hw, afterWrite_emitString_ok (s := s.withPll c) hw]; rfl
  | false => rw [afterWrite_emitString_fail hw, afterWrite_emitString_fail (s := s.withPll c) hw]; rfl

/-- R67, R80: SamplePLL is the one access that looks at the PLL fields, and PLL_SAMPLE alone makes it: every other operation
takes the same branch whatever they are. -/
theorem exec_withPll {i : Instr} (hi : i ≠ .pllSample) (c : Pll) (s : State) :
    exec i (s.withPll c) = mapNext (State.withPll c) (exec i s) := by
  cases i with
  | pllSample => exact absurd rfl hi
  | acquire =>
    cases hd : s.draws.handleOk with
    | true => rw [exec_acquire_ok hd, exec_acquire_ok (s := s.withPll c) hd]; rfl
    | false => rw [exec_acquire_fail hd, exec_acquire_fail (s := s.withPll c) hd]; rfl
  | sysclkReport => exact congrArg Host.Outcome.next (afterWrite_emitString_withPll c _ s)
  | waitRx =>
    cases hr : s.uart.rxne with
    | true => rw [exec_waitRx_snap hr, exec_waitRx_snap (s := s.withPll c) hr]; rfl
    | false => rw [exec_waitRx_spin hr, exec_waitRx_spin (s := s.withPll c) hr]; rfl
  | reportFault =>
    cases hk : messageOf s.kind with
    | some msg =>
      rw [exec_reportFault_message hk, exec_reportFault_message (s := s.withPll c) hk, afterWrite_emitString_withPll]
      rfl
    | none => rw [exec_reportFault_illegal hk, exec_reportFault_illegal (s := s.withPll c) hk]; rfl
  | waitTx =>
    cases ht : s.uart.txe with
    | true => rw [exec_waitTx_ready ht, exec_waitTx_ready (s := s.withPll c) ht]; rfl
    | false => rw [exec_waitTx_spin ht, exec_waitTx_spin (s := s.withPll c) ht]; rfl
  | echo =>
    cases ht : s.uart.txe with
    | false => rw [exec_echo_stuck ht, exec_echo_stuck (s := s.withPll c) ht]; rfl
    | true =>
      cases hw : s.writeOk with
      | true => rw [exec_echo_ok ht hw, exec_echo_ok (s := s.withPll c) ht hw]; rfl
      | false => rw [exec_echo_fail ht hw, exec_echo_fail (s := s.withPll c) ht hw]; rfl
  | _ => rfl

/-- R31, R262: no operation writes the PLL fields. For every operation but PLL_SAMPLE this follows from its not looking at
them: it does the same on the state with the fields it has. -/
theorem exec_keeps_pll {i : Instr} {s t : State} (h : exec i s = .next t) : t.pll = s.pll := by
  by_cases hi : i = .pllSample
  · subst hi
    by_cases hm : s.pll.m = 0#6
    · rw [exec_pllSample_zero hm] at h
      injection h with h
      exact h ▸ rfl
    · rw [exec_pllSample_freq hm] at h
      injection h with h
      exact h ▸ rfl
  · have hsame : Host.Outcome.next t = mapNext (State.withPll s.pll) (.next t) := by
      simpa only [withPll_self, h] using exec_withPll hi s.pll s
    injection hsame with hsame
    exact (congrArg State.pll hsame :)

/-- Settles O40: what an operation does not look at (`exec_withPll`), what it does not write (`exec_keeps_pll`), and where no row
of R178 leads. -/
theorem onlyPllSampleReadsThePll : Obligations.OnlyPllSampleReadsThePll := by
  refine ⟨fun i s c hi => exec_withPll hi c s, fun i s t h => exec_keeps_pll h, fun s t hturn h => ?_⟩
  rw [step_of_atTurn hturn, endTurnOf_eq_next_iff] at h
  obtain ⟨s', hs, rfl⟩ := h
  exact (turn_cases hs).st_ne_pllSample

/-! ### The invariant over a run -/

/-- The one code of ECHO (R100). -/
theorem st_of_fetch_echo {s : State} (h : fetch s = .echo) : s.st = 0x9#4 := by
  have hcode : ∀ v : StCode, decodeSt4 v = .echo → v = 0x9#4 := by decide
  exact hcode s.st h

/-- Settles O46: only ECHO on a full transmitter is stuck, and the invariant says that ECHO finds `txe` = 1. -/
theorem invariantStatesAreNeverStuck : Obligations.InvariantStatesAreNeverStuck := by
  intro s hi
  by_cases hturn : s.atTurn
  · rw [step_of_atTurn hturn]
    rcases exec_cases (fetch s) s with ⟨t, ht⟩ | ⟨hecho, htxe, -⟩
    · exact ⟨t.endTurn, by rw [ht]; rfl⟩
    · obtain ⟨-, -, -, -, -, htx⟩ := hi
      obtain ⟨hready, -⟩ := htx (st_of_fetch_echo hecho)
      simp [htxe] at hready
  · simp only [State.atTurn, not_forall, not_not] at hturn
    obtain ⟨m, rest, ha⟩ := hturn
    exact ⟨_, step_of_move ha⟩

/-- From a state that meets the invariant a run goes on and keeps it. -/
theorem run_of_inv {s : State} (hi : StateInv s) (n : Nat) : ∃ t, run n s = .next t ∧ StateInv t := by
  induction n generalizing s with
  | zero => exact ⟨s, rfl, hi⟩
  | succ n ih =>
    obtain ⟨s', hs⟩ := invariantStatesAreNeverStuck s hi
    obtain ⟨t, ht, hti⟩ := ih (everyStepKeepsTheInvariant s s' hi hs)
    exact ⟨t, (run_succ_of_next hs n).trans ht, hti⟩

/-- Settles O47: the invariant holds at reset, and a run from there keeps it. -/
theorem everyRunFromResetIsSafe : Obligations.EveryRunFromResetIsSafe :=
  fun pll agenda n => run_of_inv (invariantHoldsAtReset pll agenda) n

end Sys2Proof.Machine
end

section
/-! SUPPORT. Runs over an iteration of the echo loop, turn by turn: the turns that start a run carry the machine to a state
from which the rest of the run goes on (`State.LeadsTo`), one rule per operation, and the two spins. -/

namespace Sys2Proof.Machine

/-! ### The start of a run -/

/-- The turns `ts` lead from `s` to `t`: whatever turns follow, the run from `s` goes on as that from `t` (R73). -/
def State.LeadsTo (s : State) (ts : List Turn) (t : State) : Prop :=
  ∀ us, s.runTurns (ts ++ us) = t.runTurns us

theorem State.LeadsTo.nil (s : State) : s.LeadsTo [] s := fun _ => rfl

theorem State.LeadsTo.append {s t u : State} {xs ys : List Turn} (hx : s.LeadsTo xs t) (hy : t.LeadsTo ys u) :
    s.LeadsTo (xs ++ ys) u := by
  intro us
  rw [List.append_assoc, hx, hy]

/-- What `LeadsTo` says about a run that ends there. -/
theorem State.LeadsTo.runTurns_eq {s t : State} {ts : List Turn} (h : s.LeadsTo ts t) :
    s.runTurns ts = .next { t with agenda := [] } := by
  simpa [runTurns_nil] using h []

/-- A turn whose operation answers `s'`, whatever turns are to follow. -/
theorem leadsTo_of_exec {s s' : State} {t : Turn}
    (h : ∀ us, exec (fetch s) (s.atTurnOf t us) = .next { s' with agenda := .go t.draws :: agendaOf us }) :
    s.LeadsTo [t] s'.endTurn :=
  fun us => (runTurns_cons (h us)).trans rfl

/-! ### The peripheral with another record of the last ReadSR -/

/-- The peripheral with `v` as what the last ReadSR returned (R36, R79). -/
def Uart.withSeen (v : Option Flags) (u : Uart) : Uart := { u with seen := v }

@[simp] theorem withSeen_rxne (v : Option Flags) (u : Uart) : (u.withSeen v).rxne = u.rxne := rfl
@[simp] theorem withSeen_txe (v : Option Flags) (u : Uart) : (u.withSeen v).txe = u.txe := rfl
@[simp] theorem withSeen_pe (v : Option Flags) (u : Uart) : (u.withSeen v).pe = u.pe := rfl
@[simp] theorem withSeen_fe (v : Option Flags) (u : Uart) : (u.withSeen v).fe = u.fe := rfl
@[simp] theorem withSeen_ore (v : Option Flags) (u : Uart) : (u.withSeen v).ore = u.ore := rfl
@[simp] theorem withSeen_rdr (v : Option Flags) (u : Uart) : (u.withSeen v).rdr = u.rdr := rfl
@[simp] theorem withSeen_seen (v : Option Flags) (u : Uart) : (u.withSeen v).seen = v := rfl

@[simp] theorem withSeen_withSeen (v w : Option Flags) (u : Uart) : (u.withSeen v).withSeen w = u.withSeen w := rfl

/-- Moves do not look at what was seen. -/
@[simp] theorem afterMoves_withSeen (v : Option Flags) (u : Uart) (ms : List Move) :
    (u.withSeen v).afterMoves ms = (u.afterMoves ms).withSeen v :=
  afterMoves_seen u v ms

/-! ### One rule per operation of the loop -/

section Rules

variable {s : State} {t : Turn} {u : Uart}

theorem leadsTo_waitRx_snap (hst : s.st = 0x3#4) (hu : s.uart.afterMoves t.moves = u) (hr : u.rxne = true) :
    s.LeadsTo [t]
      (((s.setUart (u.withSeen (some u.flags))).setSnap (packSnap u.ore u.fe u.pe)).goto 0x4#4).endTurn := by
  subst hu
  refine leadsTo_of_exec fun us => ?_
  rw [fetch_waitRx hst]
  exact exec_waitRx_snap hr

theorem leadsTo_classify (hst : s.st = 0x4#4) :
    s.LeadsTo [t] ((s.setUart (s.uart.afterMoves t.moves)).enterClass (classOf s.snap)).endTurn := by
  refine leadsTo_of_exec fun us => ?_
  rw [fetch_classify hst]
  rfl

theorem leadsTo_drain (hst : s.st = 0x5#4) :
    s.LeadsTo [t] ((s.setUart ((s.uart.afterMoves t.moves).consumed t.draws)).goto 0x6#4).endTurn := by
  refine leadsTo_of_exec fun us => ?_
  rw [fetch_drain hst]
  rfl

theorem leadsTo_report_ok {msg : List Byte} (hst : s.st = 0x6#4) (hk : messageOf s.kind = some msg)
    (hw : t.draws.writeOk = true ∨ s.writeMayFail = false) :
    s.LeadsTo [t]
      (((s.send msg).setUart { s.uart.afterMoves t.moves with txe := t.draws.txe }).goto 0x3#4).endTurn := by
  refine leadsTo_of_exec fun us => ?_
  have hok : (s.atTurnOf t us).writeOk = true := (writeOk_iff _).2 hw
  rw [fetch_reportFault hst, exec_reportFault_message (s := s.atTurnOf t us) hk, afterWrite_emitString_ok hok]
  rfl

theorem leadsTo_read (hst : s.st = 0x7#4) (hu : s.uart.afterMoves t.moves = u) :
    s.LeadsTo [t] (((s.setUart (u.consumed t.draws)).setRxb u.rdr).goto 0x8#4).endTurn := by
  subst hu
  refine leadsTo_of_exec fun us => ?_
  rw [fetch_read hst]
  rfl

theorem leadsTo_waitTx_ready (hst : s.st = 0x8#4) (hu : s.uart.afterMoves t.moves = u) (ht : u.txe = true) :
    s.LeadsTo [t] ((s.setUart (u.withSeen (some u.flags))).goto 0x9#4).endTurn := by
  subst hu
  refine leadsTo_of_exec fun us => ?_
  rw [fetch_waitTx hst]
  exact exec_waitTx_ready ht

theorem leadsTo_echo_ok (hst : s.st = 0x9#4) (ht : s.uart.txe = true)
    (hw : t.draws.writeOk = true ∨ s.writeMayFail = false) :
    s.LeadsTo [t]
      (((s.send [s.rxb]).setUart { s.uart.afterMoves t.moves with txe := false }).goto 0x3#4).endTurn := by
  refine leadsTo_of_exec fun us => ?_
  have htxe : (s.atTurnOf t us).uart.txe = true := (afterMoves_txe _ _).2 (.inl ht)
  have hok : (s.atTurnOf t us).writeOk = true := (writeOk_iff _).2 hw
  rw [fetch_echo hst]
  exact exec_echo_ok htxe hok

end Rules

/-! ### The spins of WAIT_RX and WAIT_TX -/

/-- A turn that finds the peripheral `u` spins: WAIT_RX sees no byte (R160), or WAIT_TX a full transmitter (R168). -/
def State.SpinsOn (s : State) (u : Uart) : Prop :=
  (s.st = 0x3#4 ∧ u.rxne = false) ∨ (s.st = 0x8#4 ∧ u.txe = false)

/-- The state after a wait: the peripheral has become `u` and the sequencer has had `n` turns, and nothing else is changed. -/
def State.waited (u : Uart) (n : Nat) (s : State) : State := { s with uart := u, turns := n }

@[simp] theorem waited_st (u : Uart) (n : Nat) (s : State) : (s.waited u n).st = s.st := rfl
@[simp] theorem waited_rxb (u : Uart) (n : Nat) (s : State) : (s.waited u n).rxb = s.rxb := rfl
@[simp] theorem waited_out (u : Uart) (n : Nat) (s : State) : (s.waited u n).out = s.out := rfl
@[simp] theorem waited_uart (u : Uart) (n : Nat) (s : State) : (s.waited u n).uart = u := rfl
@[simp] theorem waited_writeMayFail (u : Uart) (n : Nat) (s : State) : (s.waited u n).writeMayFail = s.writeMayFail := rfl
@[simp] theorem waited_waited (u u' : Uart) (n n' : Nat) (s : State) : (s.waited u n).waited u' n' = s.waited u' n' := rfl

/-- Both spins do the same: they record what was seen and stay. -/
theorem leadsTo_spin {s : State} {t : Turn} {u : Uart} (hu : s.uart.afterMoves t.moves = u) (h : s.SpinsOn u) :
    s.LeadsTo [t] (s.waited (u.withSeen (some u.flags)) (s.turns + 1)) := by
  refine show s.LeadsTo [t] (s.waited (u.withSeen (some u.flags)) s.turns).endTurn from leadsTo_of_exec fun us => ?_
  subst hu
  rcases h with ⟨hst, hr⟩ | ⟨hst, ht⟩
  · rw [fetch_waitRx hst, exec_waitRx_spin (s := s.atTurnOf t us) hr, ← hst]
    rfl
  · rw [fetch_waitTx hst, exec_waitTx_spin (s := s.atTurnOf t us) ht, ← hst]
    rfl

theorem movesOf_append (xs ys : List Turn) : movesOf (xs ++ ys) = movesOf xs ++ movesOf ys :=
  List.flatMap_append

theorem movesOf_cons (t : Turn) (ts : List Turn) : movesOf (t :: ts) = t.moves ++ movesOf ts := rfl

@[simp] theorem movesOf_nil : movesOf [] = [] := rfl

theorem mem_movesOf_of_mem_take {m : Move} {ts : List Turn} {k : Nat} (h : m ∈ movesOf (ts.take k)) : m ∈ movesOf ts := by
  obtain ⟨t, ht, hm⟩ := List.mem_flatMap.1 h
  exact List.mem_flatMap.2 ⟨t, List.mem_of_mem_take ht, hm⟩

/-- The moves of one more turn. -/
theorem afterMoves_movesOf_concat (u : Uart) (ts : List Turn) (t : Turn) :
    u.afterMoves (movesOf (ts ++ [t])) = (u.afterMoves (movesOf ts)).afterMoves t.moves := by
  rw [movesOf_append, afterMoves_append, movesOf_cons, movesOf_nil, List.append_nil]

/-- R177, R273: turns that all spin change nothing but the peripheral, and that only by the moves and in what was seen. -/
theorem leadsTo_spins {s : State} {ts : List Turn}
    (h : ∀ k, k < ts.length → s.SpinsOn (s.uart.afterMoves (movesOf (ts.take (k + 1))))) :
    ∃ v n, s.LeadsTo ts (s.waited ((s.uart.afterMoves (movesOf ts)).withSeen v) n) := by
  induction ts generalizing s with
  | nil => exact ⟨s.uart.seen, s.turns, .nil s⟩
  | cons t ts ih =>
    have hfirst : s.SpinsOn (s.uart.afterMoves t.moves) := by
      simpa [movesOf_cons] using h 0 (Nat.succ_pos _)
    have hstep := leadsTo_spin rfl hfirst
    obtain ⟨v, n, hrest⟩ := ih (s := s.waited ((s.uart.afterMoves t.moves).withSeen _) (s.turns + 1)) fun k hk => by
      have hk' := h (k + 1) (Nat.succ_lt_succ hk)
      rw [List.take_succ_cons, movesOf_cons, afterMoves_append] at hk'
      rw [waited_uart, afterMoves_withSeen]
      exact hk'
    rw [waited_uart, waited_waited, afterMoves_withSeen, withSeen_withSeen] at hrest
    rw [movesOf_cons, afterMoves_append]
    exact ⟨v, n, hstep.append hrest⟩

/-- WAIT_TX over turns that see `txe` = 0, if there are any, and one that sees 1: ECHO is next (R168). -/
theorem leadsTo_echo {s : State} {ts : List Turn} {t : Turn} (hst : s.st = 0x8#4)
    (hspin : ts ≠ [] → (s.uart.afterMoves (movesOf ts)).txe = false)
    (hready : (s.uart.afterMoves (movesOf (ts ++ [t]))).txe = true) :
    ∃ c, s.LeadsTo (ts ++ [t]) c ∧ c.st = 0x9#4 ∧ c.uart.txe = true ∧ c.rxb = s.rxb ∧ c.out = s.out ∧
      c.writeMayFail = s.writeMayFail := by
  obtain ⟨v, n, hspins⟩ := leadsTo_spins (s := s) (ts := ts) fun k hk => by
    have hend := hspin (List.ne_nil_of_length_pos (Nat.zero_lt_of_lt hk))
    rw [← Bool.not_eq_true, afterMoves_txe, not_or] at hend
    obtain ⟨htxe, hno⟩ := hend
    refine .inr ⟨hst, ?_⟩
    rw [← Bool.not_eq_true, afterMoves_txe, not_or]
    exact ⟨htxe, fun hm => hno (mem_movesOf_of_mem_take hm)⟩
  rw [afterMoves_movesOf_concat] at hready
  exact ⟨_, hspins.append (leadsTo_waitTx_ready hst (afterMoves_withSeen ..) hready), rfl, hready, rfl, rfl, rfl⟩

/-! ### FAIR_TX -/

theorem firstTurns_succ (turns : Nat → Turn) (n : Nat) : firstTurns turns (n + 1) = firstTurns turns n ++ [turns n] := by
  simp [firstTurns, List.range_succ]

/-- R84: under FAIR_TX some turn finds `txe` = 1. -/
theorem exists_txe_of_fairTx {s : State} {turns : Nat → Turn} (hfair : fairTx s turns) :
    ∃ n, (s.uart.afterMoves (movesOf (firstTurns turns (n + 1)))).txe = true := by
  cases htxe : s.uart.txe with
  | true => exact ⟨0, (afterMoves_txe _ _).2 (.inl htxe)⟩
  | false =>
    obtain ⟨j, -, hj⟩ := hfair 0 _ (runTurns_nil s) htxe
    refine ⟨j, (afterMoves_txe _ _).2 (.inr ?_)⟩
    simp [firstTurns_succ, movesOf_append, movesOf_cons, hj]

/-- Among the turns that find `txe` = 1 there is a first: those before it, if any, find 0. -/
theorem exists_first_txe {s : State} {turns : Nat → Turn} (hfair : fairTx s turns) :
    ∃ n, (s.uart.afterMoves (movesOf (firstTurns turns (n + 1)))).txe = true ∧
      (firstTurns turns n ≠ [] → (s.uart.afterMoves (movesOf (firstTurns turns n))).txe = false) := by
  have hex := exists_txe_of_fairTx hfair
  refine ⟨Nat.find hex, Nat.find_spec hex, fun hne => ?_⟩
  cases hn : Nat.find hex with
  | zero => exact absurd (congrArg (firstTurns turns) hn) hne
  | succ k => exact Bool.eq_false_of_not_eq_true (Nat.find_min hex (hn ▸ Nat.lt_succ_self k))

/-- Settles O54: the first turn that finds `txe` = 1 is the one that goes to ECHO; all before it spin. -/
theorem fairTransmitterEndsWaitTx : Obligations.FairTransmitterEndsWaitTx := by
  intro s turns hst hfair
  obtain ⟨n, hready, hfirst⟩ := exists_first_txe hfair
  rw [firstTurns_succ] at hready
  obtain ⟨c, hrun, hc, -, hrxb, hout, -⟩ := leadsTo_echo hst hfirst hready
  rw [← firstTurns_succ] at hrun
  exact ⟨n + 1, _, hrun.runTurns_eq, hc, hout, hrxb⟩

end Sys2Proof.Machine
end

section
/-! SUPPORT. A drained fault does not leak into the next event (41_serial_echo_loop.md R174): the receiver after a fault
iteration, one clean arrival at it, and the iteration that echoes the byte. -/

namespace Sys2Proof.Machine

/-! ### The receiver -/

/-- The receiver holds no byte and no fault flag. -/
def Uart.ReceiverEmpty (u : Uart) : Prop := u.rxne = false ∧ u.pe = false ∧ u.fe = false ∧ u.ore = false

/-- The receiver holds the byte `b` and no fault flag. -/
def Uart.HoldsClean (b : Byte) (u : Uart) : Prop :=
  u.rxne = true ∧ u.pe = false ∧ u.fe = false ∧ u.ore = false ∧ u.rdr = b

/-- R74: moves with one arrival, clean and into an empty receiver, leave the receiver holding its byte. -/
theorem Uart.ReceiverEmpty.holdsClean {u : Uart} (h : u.ReceiverEmpty) {ms : List Move} {b : Byte} {r : Bool}
    (hone : ms.filter Move.isArrive = [.arrive b false false r]) : (u.afterMoves ms).HoldsClean b := by
  induction ms generalizing u with
  | nil => simp at hone
  | cons m ms ih =>
    obtain ⟨hrxne, hpe, hfe, hore⟩ := h
    cases m with
    | txDone =>
      rw [afterMoves_cons, afterMove_txDone]
      exact ih ⟨hrxne, hpe, hfe, hore⟩ hone
    | arrive b' p f r' =>
      have hsplit : Move.arrive b' p f r' :: ms.filter Move.isArrive = [.arrive b false false r] := hone
      obtain ⟨hm, hrest⟩ := List.cons.inj hsplit
      obtain ⟨rfl, rfl, rfl, rfl⟩ := Move.arrive.inj hm
      have hnone : ∀ m ∈ ms, m.isArrive = false := by simpa [List.filter_eq_nil_iff] using hrest
      obtain ⟨h1, h2, h3, h4, h5⟩ := afterMoves_of_no_arrival (u.afterMove (.arrive b' false false r')) hnone
      rw [afterMove_arrive_of_empty hrxne] at h1 h2 h3 h4 h5
      rw [afterMoves_cons, afterMove_arrive_of_empty hrxne]
      exact ⟨h1, h2.trans (by simp [hpe]), h3.trans (by simp [hfe]), h4.trans hore, h5⟩

/-- Moves do to the receiver the same whatever `txe` is. -/
theorem afterMoves_withTxe (u : Uart) (x : Bool) (ms : List Move) :
    ∃ y, ({ u with txe := x } : Uart).afterMoves ms = { u.afterMoves ms with txe := y } := by
  induction ms generalizing u x with
  | nil => exact ⟨x, rfl⟩
  | cons m ms ih =>
    cases m with
    | txDone => simpa only [afterMoves_cons, afterMove_txDone] using ih { u with txe := true } true
    | arrive b p f r =>
      have hcomm : ({ u with txe := x } : Uart).afterMove (.arrive b p f r) =
          { u.afterMove (.arrive b p f r) with txe := x } := by
        cases hr : u.rxne <;> simp [Uart.afterMove, Uart.arrive, hr]
      rw [afterMoves_cons, afterMoves_cons, hcomm]
      exact ih _ x

/-- R77, R161: a consuming read whose status read showed every flag that is set empties the receiver. -/
theorem consumed_receiverEmpty {u : Uart} {v : Flags} (hseen : u.seen = some v) (hpe : u.pe = v.pe) (hfe : u.fe = v.fe)
    (hore : u.ore = v.ore) (d : Draws) : (u.consumed d).ReceiverEmpty := by
  obtain ⟨hpe', hfe', hore'⟩ := consumed_of_seen hseen d
  refine ⟨rfl, hpe'.trans ?_, hfe'.trans ?_, hore'.trans ?_⟩
  · rw [hpe]; cases v.pe <;> rfl
  · rw [hfe]; cases v.fe <;> rfl
  · rw [hore]; cases v.ore <;> rfl

/-! ### The class and its message -/

/-- R162, R165: the message of the class of a snapshot with a fault flag is that of its highest-priority flag. -/
theorem messageOf_classOf_of_fault {ore fe pe : Bool} (h : (pe || fe || ore) = true) :
    messageOf (classOf (packSnap ore fe pe)) = some (if pe then msgParity else if fe then msgFraming else msgOverrun) := by
  rw [classOf_packSnap]
  cases pe with
  | true => rfl
  | false =>
    cases fe with
    | true => rfl
    | false =>
      have hore : ore = true := h
      rw [hore]
      rfl

/-- R162: a class that has a message leads to DRAIN. -/
theorem afterClass_of_message {k : KindCode} {msg : List Byte} (h : messageOf k = some msg) : afterClass k = 0x5#4 := by
  rcases afterClass_cases k with ⟨-, hto⟩ | ⟨rfl, -⟩
  · exact hto
  · simp at h

/-! ### The iterations -/

section Iterations

variable {s : State} {msg : List Byte} {b : Byte}

/-- R174: WAIT_RX, CLASSIFY and DRAIN of a fault without an arrival after the snapshot empty the receiver. -/
theorem leadsTo_drained {t0 t1 t2 : Turn} {u : Uart} (hst : s.st = 0x3#4) (hu : s.uart.afterMoves t0.moves = u)
    (hr : u.rxne = true) (hfault : (u.pe || u.fe || u.ore) = true)
    (hno : ∀ m ∈ movesOf [t1, t2], m.isArrive = false) :
    ∃ c, s.LeadsTo [t0, t1, t2] c ∧ c.st = 0x6#4 ∧ c.uart.ReceiverEmpty ∧
      messageOf c.kind = some (if u.pe then msgParity else if u.fe then msgFraming else msgOverrun) ∧
      c.out = s.out ∧ c.writeMayFail = s.writeMayFail := by
  have hmsg := messageOf_classOf_of_fault hfault
  have hrun := ((leadsTo_waitRx_snap hst hu hr).append (leadsTo_classify (t := t1) rfl)).append
    (leadsTo_drain (t := t2) (afterClass_of_message hmsg))
  refine ⟨_, hrun, rfl, ?_, hmsg, rfl, rfl⟩
  have hmoves : ((u.withSeen (some u.flags)).afterMoves t1.moves).afterMoves t2.moves =
      (u.afterMoves (movesOf [t1, t2])).withSeen (some u.flags) := by
    simp [movesOf_cons, afterMoves_append]
  obtain ⟨-, hpe, hfe, hore, -⟩ := afterMoves_of_no_arrival u hno
  show ((((u.withSeen (some u.flags)).afterMoves t1.moves).afterMoves t2.moves).consumed t2.draws).ReceiverEmpty
  rw [hmoves]
  exact consumed_receiverEmpty rfl hpe hfe hore _

/-- R165, R174: REPORT_FAULT with an empty receiver and a write that succeeds. Over the moves before it and before the WAIT_RX
turns `ws` and `t4` one arrival comes, a clean one: `ws` do not see it, and `t4` finds its byte. -/
theorem leadsTo_reported {t3 t4 : Turn} {ws : List Turn} {r : Bool} (hst : s.st = 0x6#4) (hempty : s.uart.ReceiverEmpty)
    (hk : messageOf s.kind = some msg) (hw : t3.draws.writeOk = true ∨ s.writeMayFail = false)
    (hone : (movesOf ([t3] ++ ws ++ [t4])).filter Move.isArrive = [.arrive b false false r])
    (hspin : ws ≠ [] → ∀ m ∈ movesOf ([t3] ++ ws), m.isArrive = false) :
    ∃ c, s.LeadsTo [t3] c ∧ c.st = 0x3#4 ∧ c.out = s.out ++ msg ∧ c.writeMayFail = s.writeMayFail ∧
      c.uart.txe = t3.draws.txe ∧ (ws ≠ [] → c.uart.rxne = false ∧ ∀ m ∈ movesOf ws, m.isArrive = false) ∧
      (c.uart.afterMoves (movesOf (ws ++ [t4]))).HoldsClean b := by
  refine ⟨_, leadsTo_report_ok hst hk hw, rfl, rfl, rfl, rfl, fun hne => ?_, ?_⟩
  · have hno := hspin hne
    simp only [List.singleton_append, movesOf_cons, List.forall_mem_append] at hno
    obtain ⟨hno3, hnows⟩ := hno
    obtain ⟨hkeeps, -⟩ := afterMoves_of_no_arrival s.uart hno3
    obtain ⟨hrxne, -⟩ := hempty
    exact ⟨hkeeps.trans hrxne, hnows⟩
  · have hclean := hempty.holdsClean hone
    rw [List.append_assoc, List.singleton_append, movesOf_cons, afterMoves_append] at hclean
    obtain ⟨y, hy⟩ := afterMoves_withTxe (s.uart.afterMoves t3.moves) t3.draws.txe (movesOf (ws ++ [t4]))
    show (({ s.uart.afterMoves t3.moves with txe := t3.draws.txe } : Uart).afterMoves _).HoldsClean b
    rw [hy]
    exact hclean

/-- A WAIT_RX that sees a clean byte, and CLASSIFY, which finds it VALID (R160, R162). -/
theorem leadsTo_valid {t4 t5 : Turn} {u : Uart} (hst : s.st = 0x3#4) (hu : s.uart.afterMoves t4.moves = u)
    (hclean : u.HoldsClean b) :
    ∃ c v, s.LeadsTo [t4, t5] c ∧ c.st = 0x7#4 ∧ c.kind = 0#2 ∧ c.out = s.out ∧ c.writeMayFail = s.writeMayFail ∧
      c.uart = (u.afterMoves t5.moves).withSeen v := by
  obtain ⟨hr, hpe, hfe, hore, -⟩ := hclean
  have hvalid : classOf (packSnap u.ore u.fe u.pe) = kindValid := by
    rw [hpe, hfe, hore]
    rfl
  have hrun := (leadsTo_waitRx_snap hst hu hr).append (leadsTo_classify (t := t5) rfl)
  exact ⟨_, some u.flags, hrun, congrArg afterClass hvalid, hvalid, rfl, rfl, afterMoves_withSeen ..⟩

/-- The same after WAIT_RX turns that see no arrival, if there are any. -/
theorem leadsTo_valid_after_wait {ws : List Turn} {t4 t5 : Turn} (hst : s.st = 0x3#4)
    (hspin : ws ≠ [] → s.uart.rxne = false ∧ ∀ m ∈ movesOf ws, m.isArrive = false)
    (hclean : (s.uart.afterMoves (movesOf (ws ++ [t4]))).HoldsClean b) :
    ∃ c v, s.LeadsTo (ws ++ [t4, t5]) c ∧ c.st = 0x7#4 ∧ c.kind = 0#2 ∧ c.out = s.out ∧
      c.writeMayFail = s.writeMayFail ∧
      c.uart = ((s.uart.afterMoves (movesOf (ws ++ [t4]))).afterMoves t5.moves).withSeen v := by
  obtain ⟨v, n, hspins⟩ := leadsTo_spins (s := s) (ts := ws) fun k hk => by
    obtain ⟨hr, hno⟩ := hspin (List.ne_nil_of_length_pos (Nat.zero_lt_of_lt hk))
    obtain ⟨hkeeps, -⟩ := afterMoves_of_no_arrival s.uart fun m hm => hno m (mem_movesOf_of_mem_take (k := k + 1) hm)
    exact .inl ⟨hst, hkeeps.trans hr⟩
  rw [afterMoves_movesOf_concat] at hclean ⊢
  obtain ⟨c, v', hvalid, hc, hkind, hout, hwmf, hu⟩ :=
    leadsTo_valid (s := s.waited ((s.uart.afterMoves (movesOf ws)).withSeen v) n) (t5 := t5) hst
      (afterMoves_withSeen v _ _) hclean
  exact ⟨c, v', hspins.append hvalid, hc, hkind, hout, hwmf, by rw [hu, afterMoves_withSeen, withSeen_withSeen]⟩

/-- From WAIT_RX to WAIT_TX with the byte that arrived held, where no arrival before READ replaces it (R75, R167, R266). -/
theorem leadsTo_held {ws : List Turn} {t4 t5 t6 : Turn} (hst : s.st = 0x3#4)
    (hspin : ws ≠ [] → s.uart.rxne = false ∧ ∀ m ∈ movesOf ws, m.isArrive = false)
    (hclean : (s.uart.afterMoves (movesOf (ws ++ [t4]))).HoldsClean b)
    (hkeep : ∀ c p f, Move.arrive c p f true ∉ movesOf [t5, t6]) :
    ∃ c, s.LeadsTo (ws ++ [t4, t5, t6]) c ∧ c.st = 0x8#4 ∧ c.rxb = b ∧ c.out = s.out ∧
      c.writeMayFail = s.writeMayFail ∧
      (c.uart.txe = true ↔ s.uart.txe = true ∨ Move.txDone ∈ movesOf (ws ++ [t4, t5, t6])) := by
  obtain ⟨c, v, hvalid, hc, -, hout, hwmf, hu⟩ := leadsTo_valid_after_wait (t5 := t5) hst hspin hclean
  have hrun := hvalid.append (leadsTo_read (t := t6) hc rfl)
  have hmoves : c.uart.afterMoves t6.moves =
      ((s.uart.afterMoves (movesOf (ws ++ [t4]))).afterMoves (movesOf [t5, t6])).withSeen v := by
    simp [hu, movesOf_cons, afterMoves_append]
  rw [List.append_assoc] at hrun
  refine ⟨_, hrun, rfl, ?_, hout, hwmf, ?_⟩
  · obtain ⟨hr, -, -, -, hb⟩ := hclean
    show (c.uart.afterMoves t6.moves).rdr = b
    rw [hmoves, withSeen_rdr, afterMoves_rdr_of_no_replacement _ hr hkeep, hb]
  · have hall : movesOf (ws ++ [t4, t5, t6]) = movesOf (ws ++ [t4]) ++ movesOf [t5, t6] := by
      rw [← movesOf_append, List.append_assoc]
      rfl
    show (c.uart.afterMoves t6.moves).txe = true ↔ _
    rw [hmoves, withSeen_txe, ← afterMoves_append, afterMoves_txe, hall]

/-- From WAIT_TX with a byte held: the turns that see `txe` = 0, one that sees 1, and a write of the echo that succeeds. -/
theorem leadsTo_echoed {xs : List Turn} {t7 t8 : Turn} (hst : s.st = 0x8#4)
    (hspin : xs ≠ [] → (s.uart.afterMoves (movesOf xs)).txe = false)
    (hready : (s.uart.afterMoves (movesOf (xs ++ [t7]))).txe = true)
    (hw : t8.draws.writeOk = true ∨ s.writeMayFail = false) :
    ∃ c, s.LeadsTo (xs ++ [t7, t8]) c ∧ c.st = 0x3#4 ∧ c.out = s.out ++ [s.rxb] := by
  obtain ⟨c, hecho, hc, htxe, hrxb, hout, hwmf⟩ := leadsTo_echo hst hspin hready
  have hrun := hecho.append (leadsTo_echo_ok (t := t8) hc htxe (hwmf ▸ hw))
  rw [List.append_assoc] at hrun
  exact ⟨_, hrun, rfl, by simp [hout, hrxb]⟩

end Iterations

/-- Settles O51: the fault iteration empties the receiver, so the one clean arrival that follows is all that the next WAIT_RX
sees; and `txe`, which the report draws, is 1 from the first `tx_done` on. -/
theorem drainedFaultDoesNotLeak : Obligations.DrainedFaultDoesNotLeak := by
  intro s t0 t1 t2 t3 t4 t5 t6 t7 t8 ws xs u msg b r hst hu hr hfault hmsg hno
  subst hmsg
  obtain ⟨c, hdrain, hc, hempty, hkind, hout, hwmf⟩ := leadsTo_drained hst hu.symm hr hfault hno
  refine ⟨⟨_, hdrain.runTurns_eq, hempty⟩, fun hw hone hspin => ?_⟩
  obtain ⟨c3, hreport, hc3, hout3, hwmf3, htxe3, hspin3, hclean⟩ :=
    leadsTo_reported hc hempty hkind (hwmf ▸ hw) hone hspin
  have hrun3 : s.LeadsTo [t0, t1, t2, t3] c3 := hdrain.append hreport
  rw [hout] at hout3
  refine ⟨?_, fun hkeep hwait hready hw8 => ?_⟩
  · obtain ⟨c5, v, hvalid, hc5, hkind5, hout5, -, -⟩ := leadsTo_valid_after_wait (t5 := t5) hc3 hspin3 hclean
    rw [List.append_assoc]
    exact ⟨_, (hrun3.append hvalid).runTurns_eq, hkind5, hc5, hout5.trans hout3⟩
  · obtain ⟨c6, hheld, hc6, hrxb6, hout6, hwmf6, htxe6⟩ := leadsTo_held hc3 hspin3 hclean hkeep
    have htxe (ys : List Turn) : (c6.uart.afterMoves (movesOf ys)).txe = true ↔
        t3.draws.txe = true ∨ Move.txDone ∈ movesOf (ws ++ [t4, t5, t6] ++ ys) := by
      rw [afterMoves_txe, htxe6, htxe3, movesOf_append _ ys, List.mem_append, or_assoc]
    have hspin6 (hne : xs ≠ []) : (c6.uart.afterMoves (movesOf xs)).txe = false := by
      obtain ⟨hlow, hnone⟩ := hwait hne
      rw [← Bool.not_eq_true, htxe, hlow]
      simpa using hnone
    have hready6 : (c6.uart.afterMoves (movesOf (xs ++ [t7]))).txe = true := by
      rw [htxe, ← List.append_assoc]
      exact hready
    have hw6 : t8.draws.writeOk = true ∨ c6.writeMayFail = false := by
      rw [hwmf6, hwmf3, hwmf]
      exact hw8
    obtain ⟨t, hecho, ht, houtt⟩ := leadsTo_echoed hc6 hspin6 hready6 hw6
    have hrun := (hrun3.append hheld).append hecho
    simp only [← List.append_assoc] at hrun
    exact ⟨_, hrun.runTurns_eq, ht, by rw [houtt, hrxb6, hout6, hout3]⟩

end Sys2Proof.Machine
end

section
/-! SUPPORT. The statements of 30_encoding.md: the round trips of the two formats, the rows of the classification decode by
the bits of the snapshot, and the decodes of whole register words. A mask and a match are turned into bits once, by
`and_eq_iff_bits`. -/

namespace Sys2Proof.Machine

/-! ### Masks and matches -/

/-- A masked word equals a match value exactly when they agree bit by bit. -/
theorem and_eq_iff_bits {n : Nat} (w mask val : BitVec n) :
    w &&& mask = val ↔ ∀ i < n, (w.getLsbD i && mask.getLsbD i) = val.getLsbD i := by
  rw [BitVec.eq_of_getLsbD_eq_iff]
  simp only [BitVec.getLsbD_and]

/-! ### The rows of the classification decode -/

section ClassRows

variable {v : Snap}

/-- R104, `of1`: PE set. -/
theorem parity_row_of_bits (hpe : v.getLsbD 0 = true) :
    decodeSnap3 v = .classParity (v.getLsbD 2) (v.getLsbD 1) ∧ classOf v = 1#2 := by
  simp only [decodeSnap3, classOf, hpe, if_true, and_self]

/-- R104, `o10`: PE clear, FE set. -/
theorem framing_row_of_bits (hpe : v.getLsbD 0 = false) (hfe : v.getLsbD 1 = true) :
    decodeSnap3 v = .classFraming (v.getLsbD 2) ∧ classOf v = 2#2 := by
  simp only [decodeSnap3, classOf, hpe, hfe, if_true, if_false, Bool.false_eq_true, and_self]

/-- R104, `100`: PE and FE clear, ORE set. -/
theorem overrun_row_of_bits (hpe : v.getLsbD 0 = false) (hfe : v.getLsbD 1 = false) (hore : v.getLsbD 2 = true) :
    decodeSnap3 v = .classOverrun ∧ classOf v = 3#2 := by
  simp only [decodeSnap3, classOf, hpe, hfe, hore, if_true, if_false, Bool.false_eq_true, and_self]

/-- R104, `000`: no fault flag. -/
theorem valid_row_of_bits (hpe : v.getLsbD 0 = false) (hfe : v.getLsbD 1 = false) (hore : v.getLsbD 2 = false) :
    decodeSnap3 v = .classValid ∧ classOf v = 0#2 := by
  simp only [decodeSnap3, classOf, hpe, hfe, hore, if_false, Bool.false_eq_true, and_self]

end ClassRows

/-- A snapshot is its three flags packed. -/
theorem packSnap_getLsbD (v : Snap) : packSnap (v.getLsbD 2) (v.getLsbD 1) (v.getLsbD 0) = v := by
  revert v; decide

/-- R104: every snapshot is one row's pattern with its ignored bits filled in, and decodes to that row. -/
theorem snap_cases (v : Snap) :
    (v = packSnap (v.getLsbD 2) (v.getLsbD 1) true ∧ decodeSnap3 v = .classParity (v.getLsbD 2) (v.getLsbD 1) ∧
      classOf v = 1#2) ∨
    (v = packSnap (v.getLsbD 2) true false ∧ decodeSnap3 v = .classFraming (v.getLsbD 2) ∧ classOf v = 2#2) ∨
    (v = packSnap true false false ∧ decodeSnap3 v = .classOverrun ∧ classOf v = 3#2) ∨
    (v = packSnap false false false ∧ decodeSnap3 v = .classValid ∧ classOf v = 0#2) := by
  have hpack : v = packSnap (v.getLsbD 2) (v.getLsbD 1) (v.getLsbD 0) := (packSnap_getLsbD v).symm
  cases hpe : v.getLsbD 0 with
  | true => exact .inl ⟨hpe ▸ hpack, parity_row_of_bits hpe⟩
  | false =>
    rw [hpe] at hpack
    cases hfe : v.getLsbD 1 with
    | true => exact .inr (.inl ⟨hfe ▸ hpack, framing_row_of_bits hpe hfe⟩)
    | false =>
      rw [hfe] at hpack
      cases hore : v.getLsbD 2 with
      | true => exact .inr (.inr (.inl ⟨hore ▸ hpack, overrun_row_of_bits hpe hfe hore⟩))
      | false => exact .inr (.inr (.inr ⟨hore ▸ hpack, valid_row_of_bits hpe hfe hore⟩))

/-- R104: the bits that each row's mask and match ask for. -/
theorem snap_mask_iff_bits (v : Snap) :
    (v &&& 0b001#3 = 0b001#3 ↔ v.getLsbD 0 = true) ∧
    (v &&& 0b011#3 = 0b010#3 ↔ v.getLsbD 0 = false ∧ v.getLsbD 1 = true) ∧
    (v &&& 0b111#3 = 0b100#3 ↔ v.getLsbD 0 = false ∧ v.getLsbD 1 = false ∧ v.getLsbD 2 = true) ∧
    (v &&& 0b111#3 = 0b000#3 ↔ v.getLsbD 0 = false ∧ v.getLsbD 1 = false ∧ v.getLsbD 2 = false) := by
  simp only [and_eq_iff_bits, Nat.forall_lt_succ_right]
  simp [and_assoc]

/-- Settles O4: in bits, the rows are the branches of a test of PE, then FE, then ORE, of which exactly one is taken. -/
theorem snapshotRowsAreDisjointAndCoverAll : Obligations.SnapshotRowsAreDisjointAndCoverAll := by
  intro v
  obtain ⟨hparity, hframing, hoverrun, hvalid⟩ := snap_mask_iff_bits v
  refine ⟨fun h => parity_row_of_bits (hparity.1 h), fun h => ?_, fun h => ?_, fun h => ?_, ?_⟩
  · obtain ⟨hpe, hfe⟩ := hframing.1 h
    exact framing_row_of_bits hpe hfe
  · obtain ⟨hpe, hfe, hore⟩ := hoverrun.1 h
    exact overrun_row_of_bits hpe hfe hore
  · obtain ⟨hpe, hfe, hore⟩ := hvalid.1 h
    exact valid_row_of_bits hpe hfe hore
  · simp only [hparity, hframing, hoverrun, hvalid]
    cases v.getLsbD 0 <;> cases v.getLsbD 1 <;> cases v.getLsbD 2 <;> rfl

/-! ### CLASSIFY and the class rows -/

/-- The class row that a snapshot decodes to does what its class asks for (R104, R162; log 11). -/
theorem exec_decodeSnap3 (v : Snap) (s : State) : exec (decodeSnap3 v) s = .next (s.enterClass (classOf v)) := by
  rcases snap_cases v with ⟨-, hdec, hkind⟩ | ⟨-, hdec, hkind⟩ | ⟨-, hdec, hkind⟩ | ⟨-, hdec, hkind⟩ <;>
    rw [hdec, hkind] <;> rfl

/-- Settles O26: each row's effect is `enterClass` of its kind, whatever its operands are; and CLASSIFY's is that of the
class of its snapshot, which is what the decoded row does (`exec_decodeSnap3`). -/
theorem classifyRunsTheDecodedClassRow : Obligations.ClassifyRunsTheDecodedClassRow :=
  ⟨fun _ _ _ => ⟨rfl, rfl, rfl, rfl⟩, fun s => (exec_decodeSnap3 s.snap s).symm⟩

/-! ### The round trips of the two formats -/

/-- R101: the sixteen operations have sixteen codes. -/
theorem encode_decodeSt4 (v : StCode) : encode (decodeSt4 v) = .st4 v := by
  revert v; decide

/-- R104: the bits a row's pattern fixes and those it keeps as operands are all the bits of the snapshot (log 11). -/
theorem encode_decodeSnap3 (v : Snap) : encode (decodeSnap3 v) = .snap3 v := by
  rcases snap_cases v with ⟨hv, hdec, -⟩ | ⟨hv, hdec, -⟩ | ⟨hv, hdec, -⟩ | ⟨hv, hdec, -⟩ <;>
    rw [hdec, encode, ← hv]

/-- The decoder gives back every operation from its code word (R101, R104). -/
theorem decode_encode (i : Instr) : decode (encode i) = i := by
  cases i with
  | classParity ore fe =>
    simpa only [encode, decode, packSnap_ore, packSnap_fe] using (parity_row_of_bits (packSnap_pe ore fe true)).1
  | classFraming ore =>
    simpa only [encode, decode, packSnap_ore] using
      (framing_row_of_bits (packSnap_pe ore true false) (packSnap_fe ore true false)).1
  | _ => rfl

/-- A code word's bits, in its width, are read as that code word (R111). -/
theorem readWord_bits (c : CodeWord) : readWord c.width c.bits = .ok c := by
  cases c with
  | st4 v => simp [readWord, CodeWord.width, CodeWord.bits, v.isLt]
  | snap3 v => simp [readWord, CodeWord.width, CodeWord.bits, v.isLt]

/-- Settles O1: the code word decodes back, and its raw bits are read as itself. -/
theorem encodedOperationDecodesToItself : Obligations.EncodedOperationDecodesToItself := by
  intro i _
  refine ⟨decode_encode i, ?_⟩
  rw [decodeTableWord, readWord_bits]
  exact congrArg some (decode_encode i)

/-- Settles O2, by format. -/
theorem everyCodeWordIsReencoded : Obligations.EveryCodeWordIsReencoded := by
  intro c
  cases c with
  | st4 v => exact encode_decodeSt4 v
  | snap3 v => exact encode_decodeSnap3 v

/-- Settles O3: the code written in each clause is the one the operation is encoded as. -/
theorem stateCodesSelectTheirOperations : Obligations.StateCodesSelectTheirOperations :=
  ⟨decode_encode .pllSample, decode_encode .acquire, decode_encode .sysclkReport, decode_encode .waitRx,
    decode_encode .classify, decode_encode .drain, decode_encode .reportFault, decode_encode .read,
    decode_encode .waitTx, decode_encode .echo, decode_encode .reservedA, decode_encode .reservedB,
    decode_encode .reservedC, decode_encode .reservedD, decode_encode .reservedE, decode_encode .fatal⟩

/-! ### Whole register words -/

/-- R107: the bits that each mask and match on a status word asks for. -/
theorem word_mask_iff_bits (w : BitVec 10) :
    (w &&& 0x020#10 = 0x000#10 ↔ w.getLsbD 5 = false) ∧
    (w &&& 0x021#10 = 0x021#10 ↔ w.getLsbD 0 = true ∧ w.getLsbD 5 = true) ∧
    (w &&& 0x023#10 = 0x022#10 ↔ w.getLsbD 0 = false ∧ w.getLsbD 1 = true ∧ w.getLsbD 5 = true) ∧
    (w &&& 0x02B#10 = 0x028#10 ↔
      w.getLsbD 0 = false ∧ w.getLsbD 1 = false ∧ w.getLsbD 3 = true ∧ w.getLsbD 5 = true) ∧
    (w &&& 0x080#10 = 0x080#10 ↔ w.getLsbD 7 = true) := by
  simp only [and_eq_iff_bits, Nat.forall_lt_succ_right]
  simp [and_assoc]

/-- Settles O5: with the masks in bits, both sides test RXNE, then PE, FE and ORE in the priority of R162. -/
theorem statusWordDecodeAgreesWithFlags : Obligations.StatusWordDecodeAgreesWithFlags := by
  intro w
  obtain ⟨hready, hparity, hframing, hoverrun, htxe⟩ := word_mask_iff_bits w
  constructor
  · simp only [classOfWord, hready, hparity, hframing, hoverrun, flagsOfWord, snapshot_eq, classOf_packSnap]
    cases w.getLsbD 5 with
    | false => simp
    | true =>
      cases w.getLsbD 0 with
      | true => simp
      | false => cases w.getLsbD 1 <;> cases w.getLsbD 3 <;> simp
  · rw [txReadyOfWord, Bool.eq_iff_iff, beq_iff_eq, htxe]
    rfl

/-- A bit slice as a number: the word divided by the weight of the slice's lowest bit, modulo the slice's size. -/
theorem extractLsb'_toNat_eq_div_mod {n : Nat} (w : BitVec n) (start len : Nat) :
    (w.extractLsb' start len).toNat = w.toNat / 2 ^ start % 2 ^ len := by
  rw [BitVec.extractLsb'_toNat, Nat.shiftRight_eq_div_pow]

/-- Settles O6: the slices start at bits 0, 6 and 16 and are 6, 9 and 2 bits long. -/
theorem pllWordFieldsAreItsBitSlices : Obligations.PllWordFieldsAreItsBitSlices := by
  intro w
  have hm := extractLsb'_toNat_eq_div_mod w 0 6
  rw [pow_zero, Nat.div_one] at hm
  exact ⟨hm, extractLsb'_toNat_eq_div_mod w 6 9, extractLsb'_toNat_eq_div_mod w 16 2⟩

end Sys2Proof.Machine
end

section
/-! SUPPORT. The statements of 40_clock_verifier.md: the 16-bit frequency as a quotient of naturals, its range, the decimal
spelling by its last digit, the three startup operations, and the startup run, turn by turn (`State.LeadsTo`). -/

namespace Sys2Proof.Machine

/-! ### The frequency as a quotient of naturals -/

section Quotient

variable {c : Pll}

theorem one_le_toNat_of_ne_zero {m : BitVec 6} (hm : m ≠ 0#6) : 1 ≤ m.toNat :=
  Nat.one_le_iff_ne_zero.2 fun h0 => hm (BitVec.eq_of_toNat_eq h0)

/-- R123: the denominator of a divider that is not 0 is 2 to 504. -/
theorem two_le_denominator (hm : c.m ≠ 0#6) : 2 ≤ c.m.toNat * ((c.p.toNat + 1) * 2) := by
  have hpos : 1 ≤ c.m.toNat := one_le_toNat_of_ne_zero hm
  exact Nat.mul_le_mul hpos (by omega : 2 ≤ (c.p.toNat + 1) * 2)

theorem denominator_le (c : Pll) : c.m.toNat * ((c.p.toNat + 1) * 2) ≤ 504 := by
  have hm : c.m.toNat < 64 := c.m.isLt
  have hp : c.p.toNat < 4 := c.p.isLt
  exact Nat.mul_le_mul (by omega : c.m.toNat ≤ 63) (by omega : (c.p.toNat + 1) * 2 ≤ 8)

/-- R123: neither side of the division wraps, so the 16-bit quotient is the one on naturals. -/
theorem pllFreq16_toNat (c : Pll) :
    (pllFreq16 c).toNat = 8 * c.n.toNat / (c.m.toNat * ((c.p.toNat + 1) * 2)) := by
  rw [pllFreq16, BitVec.toNat_udiv, pllNumerator_toNat, pllDenominator_toNat]

theorem pllFreq16_eq_ofNat (c : Pll) :
    pllFreq16 c = BitVec.ofNat 16 (8 * c.n.toNat / (c.m.toNat * ((c.p.toNat + 1) * 2))) := by
  rw [← pllFreq16_toNat, BitVec.ofNat_toNat, BitVec.setWidth_eq]

/-- R121, R123: the function on naturals gives what the block computes. -/
theorem pllFreq_eq_pllFreq16 (hm : c.m ≠ 0#6) : pllFreq c.m.toNat c.n.toNat c.p.toNat = .value (pllFreq16 c).toNat := by
  have hpos : c.m.toNat ≠ 0 := Nat.one_le_iff_ne_zero.1 (one_le_toNat_of_ne_zero hm)
  rw [pllFreq, if_neg hpos, pllFreq16_toNat, Config.extClkMHz]

/-- R128: the quotient reaches 2044 only with the largest numerator, 8 * 511, over the smallest denominator, 2. -/
theorem quotient_eq_2044_iff {m n p : Nat} (hm : 1 ≤ m) (hn : n ≤ 511) :
    8 * n / (m * ((p + 1) * 2)) = 2044 ↔ m = 1 ∧ n = 511 ∧ p = 0 := by
  constructor
  · intro hq
    have hden : 1 ≤ m * (p + 1) := Nat.mul_le_mul hm (Nat.le_add_left 1 p)
    have hle : 2044 * (m * ((p + 1) * 2)) ≤ 8 * n := hq ▸ Nat.div_mul_le_self _ _
    rw [← Nat.mul_assoc m] at hle
    obtain ⟨hm1, hp1⟩ : m = 1 ∧ p + 1 = 1 := mul_eq_one.1 (by omega)
    exact ⟨hm1, by omega, by omega⟩
  · rintro ⟨rfl, rfl, rfl⟩
    rfl

/-- R128: where the frequency is 2044, in the block's own fields. -/
theorem pllFreq16_eq_2044_iff (hm : c.m ≠ 0#6) :
    (pllFreq16 c).toNat = 2044 ↔ c.m = 1#6 ∧ c.n = 511#9 ∧ c.p = 0#2 := by
  have hn : c.n.toNat < 512 := c.n.isLt
  rw [pllFreq16_toNat, quotient_eq_2044_iff (one_le_toNat_of_ne_zero hm) (by omega)]
  simp only [← BitVec.toNat_inj, BitVec.toNat_ofNat, Nat.reducePow, Nat.reduceMod]

/-- R128: the frequency is 0 exactly when the numerator is below the denominator. -/
theorem pllFreq16_eq_zero_iff (hm : c.m ≠ 0#6) :
    pllFreq16 c = 0#16 ↔ 8 * c.n.toNat < c.m.toNat * ((c.p.toNat + 1) * 2) := by
  have hden := two_le_denominator hm
  rw [← BitVec.toNat_inj, pllFreq16_toNat]
  exact Nat.div_eq_zero_iff_lt (by omega)

end Quotient

/-- Settles O17: the two sides of the division and the quotient, each as the natural it stands for, with its bounds. -/
theorem sixteenBitFrequencyIsExact : Obligations.SixteenBitFrequencyIsExact := by
  refine ⟨fun m n p => rfl, fun c hm => ?_⟩
  have hn : c.n.toNat < 512 := c.n.isLt
  exact ⟨pllFreq_eq_pllFreq16 hm, pllNumerator_toNat c.n, by omega, pllDenominator_toNat c.m c.p, two_le_denominator hm,
    denominator_le c, pllFreq16_le c hm⟩

/-- Settles O18: the two branches of PLL_SAMPLE, the frequency as the quotient of naturals. -/
theorem pllSampleComputesTheFrequency : Obligations.PllSampleComputesTheFrequency := by
  refine fun s => ⟨fun hm => ?_, fun hm => exec_pllSample_zero hm⟩
  rw [← pllFreq16_eq_ofNat s.pll]
  exact exec_pllSample_freq hm

/-- Settles O19: PLL_SAMPLE writes `pllFreq16`, whose range and two ends are those of the quotient. -/
theorem frequencyRange : Obligations.FrequencyRange := by
  intro s hm
  exact ⟨_, exec_pllSample_freq hm, pllFreq16_le s.pll hm, pllFreq16_eq_2044_iff hm, pllFreq16_eq_zero_iff hm⟩

/-! ### The decimal spelling -/

theorem digitByte_toNat {d : Nat} (hd : d < 10) : (digitByte d).toNat = 0x30 + d := by
  rw [digitByte, BitVec.toNat_ofNat, Nat.mod_eq_of_lt (by omega)]

/-- The number itself is fuel enough: more changes nothing. -/
theorem decDigits_eq_dec {fuel v : Nat} (h : v ≤ fuel) : decDigits fuel v = dec v := by
  induction v using Nat.strongRecOn generalizing fuel with
  | ind v ih =>
    cases v with
    | zero => cases fuel <;> rfl
    | succ v =>
      obtain ⟨fuel, rfl⟩ : ∃ f, fuel = f + 1 := ⟨fuel - 1, by omega⟩
      have hlt : (v + 1) / 10 < v + 1 := Nat.div_lt_self (by omega) (by omega)
      rw [dec, decDigits, decDigits, ih _ hlt (by omega : _ ≤ fuel), ih _ hlt (by omega : _ ≤ v)]

theorem dec_of_lt {v : Nat} (h : v < 10) : dec v = [digitByte v] := by
  cases v with
  | zero => rfl
  | succ v => rw [dec, decDigits, if_pos h]

/-- R131: a number of more than one digit is spelled as its tenth followed by its last digit. -/
theorem dec_of_le {v : Nat} (h : 10 ≤ v) : dec v = dec (v / 10) ++ [digitByte (v % 10)] := by
  obtain ⟨w, rfl⟩ : ∃ w, v = w + 1 := ⟨v - 1, by omega⟩
  rw [dec, decDigits, if_neg (by omega), decDigits_eq_dec (by omega)]

/-- What holds of the spelling of each one-digit number, and of a spelling followed by a last digit, holds of every spelling. -/
theorem dec_induction {motive : Nat → List Byte → Prop} (digit : ∀ v < 10, motive v [digitByte v])
    (append : ∀ v, 10 ≤ v → motive (v / 10) (dec (v / 10)) → motive v (dec (v / 10) ++ [digitByte (v % 10)]))
    (v : Nat) : motive v (dec v) := by
  induction v using Nat.strongRecOn with
  | ind v ih =>
    rcases Nat.lt_or_ge v 10 with hlt | hge
    · rw [dec_of_lt hlt]
      exact digit v hlt
    · rw [dec_of_le hge]
      exact append v hge (ih _ (by omega))

theorem dec_digits (v : Nat) : ∀ b ∈ dec v, 0x30 ≤ b.toNat ∧ b.toNat ≤ 0x39 := by
  have hdigit {d : Nat} (hd : d < 10) : 0x30 ≤ (digitByte d).toNat ∧ (digitByte d).toNat ≤ 0x39 := by
    rw [digitByte_toNat hd]; omega
  induction v using dec_induction with
  | digit v hv => exact List.forall_mem_singleton.2 (hdigit hv)
  | append v _ ih =>
    exact List.forall_mem_append.2 ⟨ih, List.forall_mem_singleton.2 (hdigit (Nat.mod_lt v (by omega)))⟩

/-- The number that a spelling reads as, from the left. -/
def readDecimal (bytes : List Byte) : Nat := bytes.foldl (fun acc b => 10 * acc + (b.toNat - 0x30)) 0

theorem readDecimal_concat (bytes : List Byte) {d : Nat} (hd : d < 10) :
    readDecimal (bytes ++ [digitByte d]) = 10 * readDecimal bytes + d := by
  rw [readDecimal, List.foldl_concat, digitByte_toNat hd, Nat.add_sub_cancel_left, readDecimal]

theorem readDecimal_dec (v : Nat) : readDecimal (dec v) = v := by
  induction v using dec_induction with
  | digit v hv => simpa [readDecimal] using readDecimal_concat [] hv
  | append v _ ih =>
    rw [readDecimal_concat _ (Nat.mod_lt v (by omega)), ih]
    exact Nat.div_add_mod v 10

/-- R131: no leading zero. -/
theorem dec_head_ne_zero {v : Nat} : v ≠ 0 → ∃ b rest, dec v = b :: rest ∧ b ≠ 0x30#8 := by
  induction v using dec_induction with
  | digit v hv =>
    refine fun hne => ⟨_, [], rfl, fun hzero => hne ?_⟩
    have hbyte : 0x30 + v = 0x30 := (digitByte_toNat hv).symm.trans (congrArg BitVec.toNat hzero)
    exact Nat.add_eq_left.1 hbyte
  | append v hv ih =>
    obtain ⟨b, rest, hdec, hb⟩ := ih (by omega)
    exact fun _ => ⟨b, rest ++ _, congrArg (· ++ _) hdec, hb⟩

theorem dec_length (v : Nat) : (dec v).length = Nat.log 10 v + 1 := by
  induction v using dec_induction with
  | digit v hv => rw [Nat.log_of_lt hv, List.length_singleton]
  | append v hv ih => rw [List.length_append, ih, List.length_singleton, Nat.log_of_one_lt_of_le (by omega) hv]

/-- Settles O23: each clause by the last digit (`dec_induction`); the number of digits is one more than the logarithm. -/
theorem decimalSpelling : Obligations.DecimalSpelling := by
  refine fun v => ⟨dec_digits v, readDecimal_dec v, fun h0 => h0 ▸ rfl, dec_head_ne_zero, fun hv => ?_⟩
  have hlog : Nat.log 10 v < 4 := Nat.log_lt_of_lt_pow' (by omega) (by omega)
  rw [dec_length]
  omega

/-! ### The handle and the startup line -/

/-- SYSCLK_REPORT is a write of the startup line (R130). -/
theorem exec_sysclkReport (s : State) :
    exec .sysclkReport s = .next (afterWrite (emitString (sysclkLine s.freq) s)) := rfl

/-- Settles O20: the two branches of ACQUIRE. -/
theorem acquireFollowsTheHandleProvider : Obligations.AcquireFollowsTheHandleProvider :=
  fun _ => ⟨fun hok => exec_acquire_ok hok, fun hfail => exec_acquire_fail hfail⟩

/-- Settles O21: the two answers of the write. -/
theorem sysclkReportEmitsTheStartupLine : Obligations.SysclkReportEmitsTheStartupLine := by
  intro s
  rw [exec_sysclkReport, ← writeOk_iff, ← writeOk_false_iff]
  refine ⟨fun hok => ?_, fun hfail => ?_⟩
  · rw [afterWrite_emitString_ok hok]
    rfl
  · rw [afterWrite_emitString_fail hfail]
    rfl

/-! ### The startup run -/

section StartupRules

variable {s : State} {t : Turn}

theorem leadsTo_pllSample_freq (hst : s.st = 0x0#4) (hm : s.pll.m ≠ 0#6) :
    s.LeadsTo [t]
      (((s.setUart (s.uart.afterMoves t.moves)).setFreq (pllFreq16 s.pll)).goto 0x1#4).endTurn := by
  refine leadsTo_of_exec fun us => ?_
  rw [fetch_pllSample hst]
  exact exec_pllSample_freq hm

theorem leadsTo_acquire_ok (hst : s.st = 0x1#4) (hd : t.draws.handleOk = true) :
    s.LeadsTo [t] ((s.setUart (s.uart.afterMoves t.moves)).goto 0x2#4).endTurn := by
  refine leadsTo_of_exec fun us => ?_
  rw [fetch_acquire hst]
  exact exec_acquire_ok hd

theorem leadsTo_sysclkReport_ok (hst : s.st = 0x2#4) (hw : t.draws.writeOk = true ∨ s.writeMayFail = false) :
    s.LeadsTo [t]
      (((s.send (sysclkLine s.freq)).setUart
        { s.uart.afterMoves t.moves with txe := t.draws.txe }).goto 0x3#4).endTurn := by
  refine leadsTo_of_exec fun us => ?_
  have hok : (s.atTurnOf t us).writeOk = true := (writeOk_iff _).2 hw
  rw [fetch_sysclkReport hst, exec_sysclkReport, afterWrite_emitString_ok hok]
  rfl

end StartupRules

/-- Settles O48: one rule per turn; the line holds `freq` as PLL_SAMPLE wrote it, from an `out` that was empty at reset. -/
theorem startupReportsTheFrequency : Obligations.StartupReportsTheFrequency := by
  refine fun c agenda t0 t1 t2 => ⟨rfl, fun hm => ?_⟩
  have hpll := leadsTo_pllSample_freq (s := State.resetWith c agenda) (t := t0) rfl hm
  refine ⟨⟨_, hpll.runTurns_eq, rfl, rfl⟩, fun hhandle => ?_⟩
  have hacquire := hpll.append (leadsTo_acquire_ok (t := t1) rfl hhandle)
  refine ⟨⟨_, hacquire.runTurns_eq, rfl, rfl⟩, fun hwrite => ?_⟩
  have hreport := hacquire.append (leadsTo_sysclkReport_ok (t := t2) rfl (.inl hwrite))
  exact ⟨_, hreport.runTurns_eq, rfl, rfl, _, pllFreq_eq_pllFreq16 hm, rfl⟩

end Sys2Proof.Machine
end

section
/-! SUPPORT. The statements of 41_serial_echo_loop.md about one operation of the loop: each is the branch that the operation
takes (`exec_waitRx_snap` and its like), written out as the whole next state. -/

namespace Sys2Proof.Machine

/-! ### WAIT_RX, CLASSIFY, DRAIN -/

/-- Settles O24: the two branches of WAIT_RX, taken by `rxne` alone. -/
theorem waitRxSpinsOrTakesTheSnapshot : Obligations.WaitRxSpinsOrTakesTheSnapshot :=
  fun _ => ⟨fun hempty => exec_waitRx_spin hempty, fun hpending => exec_waitRx_snap hpending⟩

/-- CLASSIFY enters the class of the snapshot: it looks at `snap` and at nothing else (R161, R162). -/
theorem exec_classify (s : State) : exec .classify s = .next (s.enterClass (classOf s.snap)) := rfl

theorem exec_classify_of_class {s : State} {k : KindCode} (h : classOf s.snap = k) :
    exec .classify s = .next (s.enterClass k) := by
  rw [exec_classify, h]

/-- Settles O25: the class of a snapshot is that of the row its bits choose. -/
theorem classifyByFixedPriority : Obligations.ClassifyByFixedPriority := by
  refine fun s => ⟨fun hpe => ?_, fun hpe hfe => ?_, fun hpe hfe hore => ?_, fun hpe hfe hore => ?_⟩
  · exact exec_classify_of_class (parity_row_of_bits hpe).2
  · exact exec_classify_of_class (framing_row_of_bits hpe hfe).2
  · exact exec_classify_of_class (overrun_row_of_bits hpe hfe hore).2
  · exact exec_classify_of_class (valid_row_of_bits hpe hfe hore).2

/-- Settles O27: CLASSIFY reads `snap`, which is the same in both states, and it does not write the peripheral. -/
theorem classificationIgnoresLaterFlags : Obligations.ClassificationIgnoresLaterFlags := by
  intro s u
  rw [exec_classify, exec_classify]
  rfl

/-- DRAIN is the consuming read without its byte (R164). -/
theorem exec_drain (s : State) : exec .drain s = .next ((s.setUart (s.uart.consumed s.draws)).goto 0x6#4) := rfl

/-- Settles O28: the peripheral and `st` are all that DRAIN writes. -/
theorem drainConsumesAndWritesNoLatch : Obligations.DrainConsumesAndWritesNoLatch := exec_drain

/-- The consuming read does not look at `rdr` (R77). -/
theorem consumed_withRdr (u : Uart) (b : Byte) (d : Draws) :
    ({ u with rdr := b } : Uart).consumed d = { u.consumed d with rdr := b } := rfl

/-- Settles O29: neither the consuming read nor the rest of DRAIN looks at the byte. -/
theorem drainDiscardsTheByte : Obligations.DrainDiscardsTheByte := by
  intro s b
  rw [exec_drain, exec_drain, State.setUart, consumed_withRdr]
  rfl

/-! ### REPORT_FAULT -/

theorem exec_reportFault_ok {s : State} {msg : List Byte} (hk : messageOf s.kind = some msg) (hw : s.writeOk = true) :
    exec .reportFault s = .next (((s.send msg).setUart { s.uart with txe := s.draws.txe }).goto 0x3#4) := by
  rw [exec_reportFault_message hk, afterWrite_emitString_ok hw]

theorem exec_reportFault_fail {s : State} {msg : List Byte} (hk : messageOf s.kind = some msg) (hw : s.writeOk = false) :
    exec .reportFault s =
      .next (((s.send (msg.take s.draws.sent)).setUart { s.uart with txe := s.draws.txe }).raiseFatal 3#3) := by
  rw [exec_reportFault_message hk, afterWrite_emitString_fail hw]

/-- R102, R108: the message of each fault class. -/
theorem messageOf_of_kind {k : KindCode} {msg : List Byte}
    (h : (k = 1#2 ∧ msg = msgParity) ∨ (k = 2#2 ∧ msg = msgFraming) ∨ (k = 3#2 ∧ msg = msgOverrun)) :
    messageOf k = some msg := by
  rcases h with ⟨rfl, rfl⟩ | ⟨rfl, rfl⟩ | ⟨rfl, rfl⟩
  · exact messageOf_parity
  · exact messageOf_framing
  · exact messageOf_overrun

/-- Settles O30: the two answers of the write of the class's message; VALID has no message. -/
theorem reportFaultEmitsTheMessageOfItsKind : Obligations.ReportFaultEmitsTheMessageOfItsKind := by
  refine ⟨fun s msg hkind => ?_, fun s hvalid => ?_⟩
  · rw [← writeOk_iff, ← writeOk_false_iff]
    have hmsg := messageOf_of_kind hkind
    exact ⟨fun hok => exec_reportFault_ok hmsg hok, fun hfail => exec_reportFault_fail hmsg hfail⟩
  · exact exec_reportFault_illegal ((messageOf_eq_none_iff s.kind).2 hvalid)

/-! ### READ, WAIT_TX, ECHO -/

/-- READ is the consuming read with its byte put into `rxb` (R167). -/
theorem exec_read (s : State) :
    exec .read s = .next (((s.setUart (s.uart.consumed s.draws)).setRxb s.uart.rdr).goto 0x8#4) := rfl

/-- Settles O31: `rxb` becomes `rdr` as it stands, without a mask. -/
theorem readTakesTheWholeByte : Obligations.ReadTakesTheWholeByte := exec_read

/-- Settles O32: the two branches of WAIT_TX, taken by `txe` alone. -/
theorem waitTxSpinsOrGoesToEcho : Obligations.WaitTxSpinsOrGoesToEcho :=
  fun _ => ⟨fun hfull => exec_waitTx_spin hfull, fun hready => exec_waitTx_ready hready⟩

/-- Settles O33: the two answers of a write to an empty transmitter. -/
theorem echoWritesTheHeldByte : Obligations.EchoWritesTheHeldByte := by
  intro s htxe
  rw [← writeOk_iff, ← writeOk_false_iff]
  exact ⟨fun hok => exec_echo_ok htxe hok, fun hfail => exec_echo_fail htxe hfail⟩

/-! ### The reserved codes and FATAL -/

/-- R101: the codes 0xA to 0xE are those of the five reserved operations. -/
theorem decodeSt4_reserved {v : StCode} (hlo : 0xA#4 ≤ v) (hhi : v ≠ 0xF#4) :
    decodeSt4 v = .reservedA ∨ decodeSt4 v = .reservedB ∨ decodeSt4 v = .reservedC ∨ decodeSt4 v = .reservedD ∨
      decodeSt4 v = .reservedE := by
  revert v; decide

/-- R171: the operation of a reserved code raises Fatal(ILLEGAL_STATE). -/
theorem exec_fetch_reserved {s : State} (hlo : 0xA#4 ≤ s.st) (hhi : s.st ≠ 0xF#4) :
    exec (fetch s) s = .next (s.raiseFatal 4#3) := by
  rw [fetch, decode]
  rcases decodeSt4_reserved hlo hhi with hop | hop | hop | hop | hop <;> rw [hop] <;> rfl

/-- Settles O35: all five operations enter FATAL with cause 4, and a turn on a reserved code runs one of them. -/
theorem reservedCodesRaiseIllegalState : Obligations.ReservedCodesRaiseIllegalState := by
  refine ⟨fun s t ht => ?_, fun s hturn hlo hhi => ?_⟩
  · subst ht
    exact ⟨rfl, rfl, rfl, rfl, rfl⟩
  · refine ⟨(s.raiseFatal 4#3).endTurn, ?_, rfl, rfl, rfl, rfl, rfl⟩
    rw [step_of_atTurn hturn, exec_fetch_reserved hlo hhi, endTurnOf_next]

/-- FATAL's stutter (R170; log 8). -/
theorem exec_fatal (s : State) : exec .fatal s = .next s := rfl

/-- Settles O36: the stutter answers the state it is given. -/
theorem fatalStuttersInPlace : Obligations.FatalStuttersInPlace := exec_fatal

end Sys2Proof.Machine
end

section
/-! SUPPORT. The statements of 41_serial_echo_loop.md about every turn and about FATAL: the next-state table row by row
(`TurnRow`), and runs that start in FATAL. -/

namespace Sys2Proof.Machine

/-! ### The next-state table -/

/-- A turn that answers a next state does so by a row of the table and the turn's end (R178). -/
theorem turn_rows {s t : State} (hturn : s.atTurn) (h : step s = .next t) : ∃ s', TurnRow s s' ∧ t = s'.endTurn := by
  rw [step_of_atTurn hturn, endTurnOf_eq_next_iff] at h
  obtain ⟨s', hs, ht⟩ := h
  exact ⟨s', turn_cases hs, ht⟩

/-- R162, R178: CLASSIFY leads to READ exactly for the snapshot without flags. -/
theorem afterClass_classOf (v : Snap) : afterClass (classOf v) = if v = 0#3 then 0x7#4 else 0x5#4 := by
  revert v; decide

/-- A class that has a message is a fault class (R102). -/
theorem kind_ne_of_message {k : KindCode} {msg : List Byte} (h : messageOf k = some msg) : k ≠ 0#2 := by
  rintro rfl
  exact nomatch h

/-- Settles O37: each row of the table has its state and its condition as premises; those refute the other states' lines and
decide its own. -/
theorem turnsFollowTheNextStateTable : Obligations.TurnsFollowTheNextStateTable := by
  intro s t hturn h
  obtain ⟨s', hrow, rfl⟩ := turn_rows hturn h
  have hwrite : (s.draws.writeOk || !s.writeMayFail) = s.writeOk := rfl
  rw [State.endTurn_st, hwrite]
  cases hrow with
  | pllZero hst hm | pllFreq hst hm => simp [hst, hm]
  | acquireOk hst hd | acquireFail hst hd => simp [hst, hd]
  | sysclkOk hst hw | sysclkFail hst hw => simp [hst, hw]
  | waitRxSpin hst hr | waitRxSnap hst hr => simp [hst, hr]
  | classify hst => simp [hst, State.enterClass, afterClass_classOf]
  | drain hst | read hst | fatal hst => simp [hst]
  | reportOk _ hst hk hw | reportFail _ hst hk hw => simp [hst, hw, kind_ne_of_message hk]
  | reportIllegal hst hk => simp [hst, hk]
  | waitTxSpin hst ht | waitTxReady hst ht => simp [hst, ht]
  | echoOk hst ht hw | echoFail hst ht hw => simp [hst, hw]
  | reserved hlo hhi =>
    have hcode (c : StCode) (hc : ¬ 0xA#4 ≤ c) : s.st ≠ c := fun heq => hc (heq ▸ hlo)
    simp [hcode]

/-! ### FATAL is absorbing -/

/-- The block as it is in `s`, in another environment: the peripheral, the agenda and the count of turns (R21, R73). -/
def State.withEnvironment (u : Uart) (agenda : List Event) (n : Nat) (s : State) : State :=
  { s with uart := u, agenda := agenda, turns := n }

/-- R170, R226: a step in FATAL is a move of the environment or the stutter of log 8, and changes nothing of the block. -/
theorem step_of_fatal {s : State} (hst : s.st = 0xF#4) : ∃ u agenda n, step s = .next (s.withEnvironment u agenda n) := by
  by_cases hturn : s.atTurn
  · refine ⟨s.uart, agendaAfterTurn s.agenda, s.turns + 1, ?_⟩
    rw [step_of_atTurn hturn, fetch_fatal hst]
    rfl
  · simp only [State.atTurn, not_forall, not_not] at hturn
    obtain ⟨m, rest, ha⟩ := hturn
    exact ⟨s.uart.afterMove m, rest, s.turns, step_of_move ha⟩

/-- R226, R227: no number of steps leads out of FATAL. -/
theorem run_of_fatal {s : State} (hst : s.st = 0xF#4) (k : Nat) :
    ∃ u agenda n, run k s = .next (s.withEnvironment u agenda n) := by
  induction k generalizing s with
  | zero => exact ⟨s.uart, s.agenda, s.turns, rfl⟩
  | succ k ih =>
    obtain ⟨u, agenda, n, hstep⟩ := step_of_fatal hst
    rw [run_succ_of_next hstep]
    exact ih (s := s.withEnvironment u agenda n) hst

/-- Settles O42: after any number of steps the state differs from the first in the environment alone. -/
theorem fatalIsAbsorbing : Obligations.FatalIsAbsorbing := by
  intro n s hst
  obtain ⟨u, agenda, k, hrun⟩ := run_of_fatal hst n
  exact ⟨_, hrun, hst, rfl, rfl, rfl, rfl, rfl, rfl, rfl, rfl, rfl⟩

end Sys2Proof.Machine
end

section
/-! SUPPORT. The statements of 41_serial_echo_loop.md about runs: the two waits (R177, R273), the fault iteration (R172) and
the valid iteration (R173), each from the rules of the single turns (`State.LeadsTo`). -/

namespace Sys2Proof.Machine

/-! ### Moves -/

/-- A byte is pending after a sequence of moves exactly if one was before or one arrived (R74, R75). -/
theorem afterMoves_rxne (u : Uart) (ms : List Move) :
    (u.afterMoves ms).rxne = true ↔ u.rxne = true ∨ ∃ m ∈ ms, m.isArrive = true := by
  induction ms generalizing u with
  | nil => simp
  | cons m ms ih =>
    rw [afterMoves_cons, ih]
    cases m with
    | arrive b p f r => cases hr : u.rxne <;> simp [Uart.afterMove, Uart.arrive, Move.isArrive, hr]
    | txDone => simp [afterMove_txDone, Move.isArrive]

/-- What moves do to `txe` depends on `txe` alone (R76). -/
theorem afterMoves_txe_congr {u v : Uart} (h : u.txe = v.txe) (ms : List Move) :
    (u.afterMoves ms).txe = (v.afterMoves ms).txe := by
  rw [Bool.eq_iff_iff, afterMoves_txe, afterMoves_txe, h]

/-- R76: no move but `tx_done` raises `txe`. -/
theorem afterMoves_txe_of_no_txDone {u : Uart} {ms : List Move} (h0 : u.txe = false) (hno : Move.txDone ∉ ms) :
    (u.afterMoves ms).txe = false := by
  rw [← Bool.not_eq_true, afterMoves_txe]
  simp [h0, hno]

/-! ### The waits -/

/-- R177: WAIT_RX over turns in which nothing arrives. -/
theorem leadsTo_waitRx_spins {s : State} {ts : List Turn} (hst : s.st = 0x3#4) (hr : s.uart.rxne = false)
    (hno : ∀ m ∈ movesOf ts, m.isArrive = false) :
    ∃ v n, s.LeadsTo ts (s.waited ((s.uart.afterMoves (movesOf ts)).withSeen v) n) :=
  leadsTo_spins fun k _ => by
    obtain ⟨hkeeps, -⟩ := afterMoves_of_no_arrival s.uart fun m hm => hno m (mem_movesOf_of_mem_take (k := k + 1) hm)
    exact .inl ⟨hst, hkeeps.trans hr⟩

/-- Settles O52: the turns without an arrival spin (`leadsTo_waitRx_spins`), and an arrival makes a byte pending, which the next
turn's WAIT_RX sees. -/
theorem waitRxLeavesOnlyAfterAnArrival : Obligations.WaitRxLeavesOnlyAfterAnArrival := by
  intro s ts t0 hst hr hno
  obtain ⟨v, n, hspins⟩ := leadsTo_waitRx_spins hst hr hno
  refine ⟨⟨_, hspins.runTurns_eq, hst, ?_, rfl, rfl, rfl, rfl, rfl, rfl, rfl, rfl⟩, fun harrive => ?_⟩
  · obtain ⟨hkeeps, -⟩ := afterMoves_of_no_arrival s.uart hno
    exact hkeeps.trans hr
  · have hsnap := leadsTo_waitRx_snap (t := t0)
      (s := s.waited ((s.uart.afterMoves (movesOf ts)).withSeen v) n) hst rfl ((afterMoves_rxne _ _).2 (.inr harrive))
    exact ⟨_, (hspins.append hsnap).runTurns_eq, rfl, rfl, rfl⟩

/-- Settles O53: the turns without `tx_done` find `txe` = 0 and spin, and the one after a `tx_done` finds 1
(`leadsTo_echo`). -/
theorem waitTxLeavesOnlyAfterTxDone : Obligations.WaitTxLeavesOnlyAfterTxDone := by
  intro s ts t0 hst htxe hno
  have hfull : (s.uart.afterMoves (movesOf ts)).txe = false := afterMoves_txe_of_no_txDone htxe hno
  refine ⟨?_, fun hdone => ?_⟩
  · obtain ⟨v, n, hspins⟩ := leadsTo_spins (s := s) (ts := ts) fun k _ =>
      .inr ⟨hst, afterMoves_txe_of_no_txDone htxe fun hm => hno (mem_movesOf_of_mem_take hm)⟩
    exact ⟨_, hspins.runTurns_eq, hst, hfull, rfl, rfl⟩
  · have hready : (s.uart.afterMoves (movesOf (ts ++ [t0]))).txe = true := by
      rw [afterMoves_movesOf_concat]
      exact (afterMoves_txe _ _).2 (.inr hdone)
    obtain ⟨c, hecho, hc, -, hrxb, hout, -⟩ := leadsTo_echo hst (fun _ => hfull) hready
    exact ⟨_, hecho.runTurns_eq, hc, hout, hrxb⟩

/-! ### Turns whose write fails -/

section FailingWrites

variable {s : State} {t : Turn}

theorem leadsTo_report_fail {msg : List Byte} (hst : s.st = 0x6#4) (hk : messageOf s.kind = some msg)
    (hw : t.draws.writeOk = false ∧ s.writeMayFail = true) :
    s.LeadsTo [t]
      (((s.send (msg.take t.draws.sent)).setUart
        { s.uart.afterMoves t.moves with txe := t.draws.txe }).raiseFatal 3#3).endTurn := by
  refine leadsTo_of_exec fun us => ?_
  have hfail : (s.atTurnOf t us).writeOk = false := (writeOk_false_iff _).2 hw
  rw [fetch_reportFault hst]
  exact exec_reportFault_fail (s := s.atTurnOf t us) hk hfail

theorem leadsTo_echo_fail (hst : s.st = 0x9#4) (ht : s.uart.txe = true)
    (hw : t.draws.writeOk = false ∧ s.writeMayFail = true) :
    s.LeadsTo [t] ((s.setUart (s.uart.afterMoves t.moves)).raiseFatal 3#3).endTurn := by
  refine leadsTo_of_exec fun us => ?_
  have htxe : (s.atTurnOf t us).uart.txe = true := (afterMoves_txe _ _).2 (.inl ht)
  have hfail : (s.atTurnOf t us).writeOk = false := (writeOk_false_iff _).2 hw
  rw [fetch_echo hst]
  exact exec_echo_fail htxe hfail

end FailingWrites

/-! ### The iterations -/

/-- Settles O49: one rule per turn; the class that CLASSIFY writes has the message of the highest-priority flag
(`messageOf_classOf_of_fault`), and no turn after WAIT_RX writes the snapshot. -/
theorem faultIterationEmitsExactlyOneMessage : Obligations.FaultIterationEmitsExactlyOneMessage := by
  intro s t0 t1 t2 t3 u msg hst hu hr hfault hmsg
  have hkind : messageOf (classOf (packSnap u.ore u.fe u.pe)) = some msg := hmsg ▸ messageOf_classOf_of_fault hfault
  have hto := afterClass_of_message hkind
  have hsnap := leadsTo_waitRx_snap hst hu.symm hr
  have hclass := hsnap.append (leadsTo_classify (t := t1) rfl)
  have hdrain := hclass.append (leadsTo_drain (t := t2) hto)
  refine ⟨⟨_, hsnap.runTurns_eq, rfl, rfl⟩, ⟨_, hclass.runTurns_eq, hto, rfl⟩, ⟨_, hdrain.runTurns_eq, rfl, rfl⟩,
    fun hok => ?_, fun hfail hmay => ?_⟩
  · exact ⟨_, (hdrain.append (leadsTo_report_ok (t := t3) rfl hkind hok)).runTurns_eq, rfl, rfl, rfl⟩
  · exact ⟨_, (hdrain.append (leadsTo_report_fail (t := t3) rfl hkind ⟨hfail, hmay⟩)).runTurns_eq, rfl, rfl, rfl, rfl⟩

/-- R173: WAIT_RX, CLASSIFY and READ of a snapshot without fault flags: `rxb` holds the byte that is in `rdr` at READ. -/
theorem leadsTo_read_of_valid {s : State} {t0 t1 t2 : Turn} {u : Uart} (hst : s.st = 0x3#4)
    (hu : s.uart.afterMoves t0.moves = u) (hr : u.rxne = true) (hclass : classOf (packSnap u.ore u.fe u.pe) = 0#2) :
    ∃ c, s.LeadsTo [t0, t1, t2] c ∧ c.st = 0x8#4 ∧ c.rxb = (s.uart.afterMoves (movesOf [t0, t1, t2])).rdr ∧
      c.out = s.out ∧ c.fcause = s.fcause ∧ c.writeMayFail = s.writeMayFail ∧
      c.uart.txe = (s.uart.afterMoves (movesOf [t0, t1, t2])).txe := by
  have hmoves : ((u.withSeen (some u.flags)).afterMoves t1.moves).afterMoves t2.moves =
      (s.uart.afterMoves (movesOf [t0, t1, t2])).withSeen (some u.flags) := by
    simp [← hu, movesOf_cons, afterMoves_append]
  have hrun := ((leadsTo_waitRx_snap hst hu hr).append (leadsTo_classify (t := t1) rfl)).append
    (leadsTo_read (t := t2) (congrArg afterClass hclass) hmoves)
  exact ⟨_, hrun, rfl, rfl, rfl, rfl, rfl, rfl⟩

/-- R168, R177: the first `k` of turns that all find `txe` = 0 leave WAIT_TX waiting. -/
theorem leadsTo_waitTx_spins {s : State} {ts : List Turn} (hst : s.st = 0x8#4)
    (hfull : ∀ k, k < ts.length → (s.uart.afterMoves (movesOf (ts.take (k + 1)))).txe = false) (k : Nat) :
    ∃ v n, s.LeadsTo (ts.take k) (s.waited ((s.uart.afterMoves (movesOf (ts.take k))).withSeen v) n) :=
  leadsTo_spins fun j hj => by
    obtain ⟨hjk, hjlen⟩ : j < k ∧ j < ts.length := by simpa using hj
    rw [List.take_take, Nat.min_eq_left hjk]
    exact .inr ⟨hst, hfull j hjlen⟩

/-- R168, R173: turns that find `txe` = 0 and one that finds 1 lead to ECHO, and change nothing but the peripheral, in which
the last ReadSR showed `txe` = 1. -/
theorem leadsTo_echo_waited {s : State} {ts : List Turn} {t : Turn} (hst : s.st = 0x8#4)
    (hfull : ∀ k, k < ts.length → (s.uart.afterMoves (movesOf (ts.take (k + 1)))).txe = false)
    (hready : (s.uart.afterMoves (movesOf (ts ++ [t]))).txe = true) :
    ∃ (u : Uart) (n : Nat), s.LeadsTo (ts ++ [t]) ((s.waited (u.withSeen (some u.flags)) n).goto 0x9#4) ∧ u.txe = true := by
  obtain ⟨v, n, hspins⟩ := leadsTo_waitTx_spins hst hfull ts.length
  rw [List.take_length] at hspins
  rw [afterMoves_movesOf_concat] at hready
  exact ⟨_, n + 1, hspins.append (leadsTo_waitTx_ready hst (afterMoves_withSeen ..) hready), hready⟩

/-- Settles O50: READ holds the byte (`leadsTo_read_of_valid`), WAIT_TX keeps it over its spins, and ECHO writes it. The spins
are stated of the moves from the start of the iteration on; what those do to `txe` the moves from WAIT_TX on do as well. -/
theorem validIterationEchoesTheByte : Obligations.ValidIterationEchoesTheByte := by
  intro s t0 t1 t2 t4 t5 ws u b hst hu hr hclean hb hfull hready
  have hvalid : classOf (packSnap u.ore u.fe u.pe) = 0#2 := by
    obtain ⟨⟨hpe, hfe⟩, hore⟩ : (u.pe = false ∧ u.fe = false) ∧ u.ore = false := by simpa using hclean
    rw [hpe, hfe, hore]
    rfl
  have hsnap := leadsTo_waitRx_snap hst hu.symm hr
  have hclass := hsnap.append (leadsTo_classify (t := t1) rfl)
  obtain ⟨c, hread, hc, hrxb, hout, hcause, hwmf, htxe⟩ :=
    leadsTo_read_of_valid (t1 := t1) (t2 := t2) hst hu.symm hr hvalid
  have hsame (ys : List Turn) : (c.uart.afterMoves (movesOf ys)).txe =
      (s.uart.afterMoves (movesOf ([t0, t1, t2] ++ ys))).txe := by
    rw [movesOf_append, afterMoves_append]
    exact afterMoves_txe_congr htxe _
  have hwaits (k : Nat) (hk : k < ws.length) : (c.uart.afterMoves (movesOf (ws.take (k + 1)))).txe = false :=
    (hsame _).trans (hfull k hk)
  obtain ⟨w, n, hwait, hw⟩ := leadsTo_echo_waited hc hwaits ((hsame _).trans (List.append_assoc .. ▸ hready))
  have hecho := hread.append hwait
  rw [← List.append_assoc] at hecho
  have hsplit : [t0, t1, t2] ++ ws ++ [t4, t5] = [t0, t1, t2] ++ ws ++ [t4] ++ [t5] := by simp
  rw [hsplit]
  rw [← hb] at hrxb
  refine ⟨⟨_, hsnap.runTurns_eq, rfl, rfl⟩, ⟨_, hclass.runTurns_eq, congrArg afterClass hvalid, hvalid, rfl⟩,
    fun k _ => ?_, ⟨_, hecho.runTurns_eq, rfl, hrxb, hout, w.flags, rfl, hw⟩, fun hok => ?_, fun hfail hmay => ?_, fun hno => ?_⟩
  · obtain ⟨v, n, hspins⟩ := leadsTo_waitTx_spins hc hwaits k
    exact ⟨_, (hread.append hspins).runTurns_eq, hc, hrxb, hout⟩
  · have hrun := hecho.append (leadsTo_echo_ok (t := t5) rfl hw (hwmf ▸ hok))
    exact ⟨_, hrun.runTurns_eq, rfl, hcause, by simp [hout, hrxb]⟩
  · have hrun := hecho.append (leadsTo_echo_fail (t := t5) rfl hw ⟨hfail, hwmf.trans hmay⟩)
    exact ⟨_, hrun.runTurns_eq, rfl, rfl, rfl, hout⟩
  · obtain ⟨-, -, -, -, hrdr⟩ := afterMoves_of_no_arrival u hno
    rw [hb, hu, movesOf_cons, afterMoves_append, ← hu]
    exact hrdr

end Sys2Proof.Machine
end

section
/-! SUPPORT. The statement of 60_exceptions.md: the inversion of a turn that enters FATAL into the fault that it raised. -/

namespace Sys2Proof.Machine

/-- R221 to R225: a turn from outside FATAL into it raises one fault, in a state and on an answer that raise it, and what stands
after it is the state the port access left with the fault's record. Only a failed EmitString has handed over anything (R81). -/
theorem TurnRow.fault_cases {s t : State} (h : TurnRow s t) (hs : s.st ≠ 0xF#4) (ht : t.st = 0xF#4) :
    (s.st = 0x0#4 ∧ s.pll.m = 0#6 ∧ t = s.raiseFatal 1#3) ∨
    (s.st = 0x1#4 ∧ s.draws.handleOk = false ∧ t = s.raiseFatal 2#3) ∨
    ((s.st = 0x2#4 ∨ s.st = 0x6#4) ∧ s.writeOk = false ∧
      ∃ bytes, t = ((s.send bytes).setUart { s.uart with txe := s.draws.txe }).raiseFatal 3#3) ∨
    (s.st = 0x9#4 ∧ s.writeOk = false ∧ t = s.raiseFatal 3#3) ∨
    ((0xA#4 ≤ s.st ∨ (s.st = 0x6#4 ∧ s.kind = 0#2)) ∧ t = s.raiseFatal 4#3) := by
  cases h with
  | pllZero hst hm => exact .inl ⟨hst, hm, rfl⟩
  | acquireFail hst hd => exact .inr (.inl ⟨hst, hd, rfl⟩)
  | sysclkFail hst hw => exact .inr (.inr (.inl ⟨.inl hst, hw, _, rfl⟩))
  | reportFail _ hst _ hw => exact .inr (.inr (.inl ⟨.inr hst, hw, _, rfl⟩))
  | echoFail hst _ hw => exact .inr (.inr (.inr (.inl ⟨hst, hw, rfl⟩)))
  | reserved hlo => exact .inr (.inr (.inr (.inr ⟨.inl hlo, rfl⟩)))
  | reportIllegal hst hk => exact .inr (.inr (.inr (.inr ⟨.inr ⟨hst, hk⟩, rfl⟩)))
  | classify => exact absurd ht (afterClass_ne_fatal _)
  | fatal hst => exact absurd hst hs
  | _ => simp at ht

/-- Settles O41: each fault's record is its own state and cause (`TurnRow.fault_cases`), and the turn's end keeps it. A write
counts as failed exactly when the answer is a failure and WRITE_MAY_FAIL holds (R35). -/
theorem faultEntryRecordsStateAndCause : Obligations.FaultEntryRecordsStateAndCause := by
  intro s t hturn hs h ht
  obtain ⟨s', hrow, rfl⟩ := turn_rows hturn h
  rcases hrow.fault_cases hs ht with
    ⟨hst, hm, rfl⟩ | ⟨hst, hd, rfl⟩ | ⟨hst, hw, bytes, rfl⟩ | ⟨hst, hw, rfl⟩ | ⟨hillegal, rfl⟩
  · exact ⟨rfl, rfl, .inl ⟨rfl, hst, hm, rfl, rfl⟩⟩
  · exact ⟨rfl, rfl, .inr (.inl ⟨rfl, hst, hd, rfl⟩)⟩
  · obtain ⟨hfail, hmay⟩ := (writeOk_false_iff s).1 hw
    have hne : s.st ≠ 0x9#4 := by rcases hst with hst | hst <;> simp [hst]
    exact ⟨rfl, rfl, .inr (.inr (.inl ⟨rfl, hst.imp_right .inl, hfail, hmay, fun h9 => absurd h9 hne⟩))⟩
  · obtain ⟨hfail, hmay⟩ := (writeOk_false_iff s).1 hw
    exact ⟨rfl, rfl, .inr (.inr (.inl ⟨rfl, .inr (.inr hst), hfail, hmay, fun _ => rfl⟩))⟩
  · exact ⟨rfl, rfl, .inr (.inr (.inr ⟨rfl, hillegal, rfl⟩))⟩

end Sys2Proof.Machine
end

section
/-! SUPPORT. The statements of 70_reset_and_hazards.md: the latches, the first operation and the peripheral at reset. -/

namespace Sys2Proof.Machine

/-- R260: the sequencer starts with PLL_SAMPLE, whatever the environment has set. -/
theorem fetch_resetWith (pll : Pll) (agenda : List Event) : fetch (State.resetWith pll agenda) = .pllSample :=
  fetch_pllSample rfl

/-- Settles O7: each latch is a field of the reset state with a value of its own, and the code 0x0 decodes to PLL_SAMPLE. -/
theorem resetLeavesLatchesAtTheirResetValues : Obligations.ResetLeavesLatchesAtTheirResetValues := by
  refine ⟨⟨_, _, rfl⟩, fun pll agenda => ?_⟩
  have hop : fetch (State.resetWith pll agenda) = .pllSample := fetch_resetWith pll agenda
  exact ⟨rfl, rfl, rfl, rfl, rfl, rfl, rfl, rfl, hop, rfl, rfl⟩

/-- CLEAN_UART is no choice of the environment: the PLL fields and the agenda do not reach the peripheral (R37, R264). -/
theorem uart_resetWith (pll : Pll) (agenda : List Event) : (State.resetWith pll agenda).uart = Uart.clean := rfl

/-- Settles O8: the peripheral at reset is the clean one (`uart_resetWith`), whose fields are the values of R37. -/
theorem peripheralIsCleanAtReset : Obligations.PeripheralIsCleanAtReset := by
  intro pll agenda
  rw [uart_resetWith]
  exact ⟨rfl, rfl, rfl, rfl, rfl, rfl, rfl⟩

end Sys2Proof.Machine
end
